-- ==== Sys2Proof/Word.lean ====
section
/-! DEFINITION. The element widths of BFAC's register space (00_scope.md R5, R8; 20_memory.md R38).
Every value is unsigned, and bit `k` has weight `2 ^ k` (R8, R34). -/

namespace Sys2Proof

/-- `FIELDW` bits: a record field `REC[f]`, an `EINFO` register, `LEVEL` (R11, R17, R19). -/
abbrev Byte := BitVec 8

/-- `SYMW` bits: a password symbol, 0 to 7, every value legal in every slot (R13, R44). -/
abbrev Symbol := BitVec 3

/-- The `LEN` register: 4 bits (R14). -/
abbrev LenWord := BitVec 4

/-- The `STATUS` register: 4 bits, `OK` in bit 0 and `ERR` in bits 3:1 (R16). -/
abbrev StatusWord := BitVec 4

/-- One `TABLE` entry packed as `(field, shift)`: 6 bits (R18, R52). -/
abbrev TableEntry := BitVec 6

end Sys2Proof
end

