-- ==== Sys2Proof/Config.lean ====
section
/-! DEFINITION. What a BFAC block is built with and no rule gives a value of. -/

namespace Sys2Proof

/-- The open parameter `TABLE` (00_scope.md R6; 92_eei_decisions.md D1): the 32 `(field, shift)`
pairs the block is built with. No source gives them, so the constant has no body and nothing can be
proved of a value of it. WF1 (32 entries, both halves in 0..7) is its type (R129). It is what
`State.table` holds at reset (R25, R127); no statement rests on it. Log 4. -/
opaque Config.table : Vector TableEntry 32

/-- The one symbol whose name the spec ties to a value: Cross is 0 (30_encoding.md R45). -/
def cross : Symbol := 0#3

end Sys2Proof
end

