-- ==== Sys2Proof/Syntax.lean ====
section
/-! DEFINITION. The commands of BFAC: one constructor per row of spec/opcode_table.json. -/

namespace Sys2Proof

/-- The command set, complete (30_encoding.md R57, R58; 60_exceptions.md R124). A command has no
operand fields and no immediates: its operands are registers of the block (R57, R20). -/
inductive Instr where
  /-- `DEC`, `CMD` value 0: decode the password in `SYM`, `LEN` into `REC` (42_decoder.md R76). -/
  | dec
  /-- `ENC`, `CMD` value 1: encode the record in `REC` into `SYM`, `LEN` (43_encoder.md R85). -/
  | enc
deriving DecidableEq, Repr

end Sys2Proof
end

