-- ==== Sys2Proof/Syntax/HostAccess.lean ====
section
/-! DEFINITION. What a host can do to the block: the accesses of the port as the port carries them
(register number and value), and the same accesses as 30_encoding.md R61 writes them. -/

namespace Sys2Proof

/-- One host access as it stands at the port (20_memory.md R30): `RegRead(n)`, `RegWrite(n, v)` or the
reset event. Number and value are plain naturals here, so that what the register map does not allow
can be written down and refused by name (R33). -/
inductive PortAccess where
  /-- `RegRead(n)` (R31). -/
  | read (n : Nat)
  /-- `RegWrite(n, v)` (R32). -/
  | write (n v : Nat)
  /-- `RESET`, the reset event (70_reset_and_hazards.md R125). -/
  | reset
deriving DecidableEq, Repr

/-- One host access the register map allows, in the notation of 30_encoding.md R61. Each value has
exactly the width of its element, so a wider value cannot be expressed (R32). -/
inductive Access where
  /-- `WREC f, v`: `REC[f] <- v`. -/
  | wrec (f : Fin 8) (v : Byte)
  /-- `WSYM k, v`: `SYM[k] <- v`. -/
  | wsym (k : Fin 12) (v : Symbol)
  /-- `WLEN n`: `LEN <- n`. -/
  | wlen (n : LenWord)
  /-- `DEC` or `ENC`: the write of `CMD` that runs the command to its end. -/
  | cmd (i : Instr)
  /-- `RREC f`: read `REC[f]`. -/
  | rrec (f : Fin 8)
  /-- `RSYM k`: read `SYM[k]`. -/
  | rsym (k : Fin 12)
  /-- `RLEN`: read `LEN`. -/
  | rlen
  /-- `RSTAT`: read `STATUS`. -/
  | rstat
  /-- `REI j`: read `EINFOj`. -/
  | rei (j : Fin 3)
  /-- `RLVL`: read `LEVEL`. -/
  | rlvl
  /-- `RTAB i`: read `TABLE[i]`, packed. -/
  | rtab (i : Fin 32)
  /-- `RESET`: the reset event. -/
  | reset
deriving DecidableEq, Repr

/-- Why the decoder rejects a port access (20_memory.md R33). -/
inductive AccessReject where
  /-- A number above 63: the register space has 64 numbers (R28). -/
  | outsideSpace
  /-- A number 27 to 31, reserved for reads and writes (R29, R33). -/
  | reservedNumber
  /-- A read of `CMD`, which is write-only (R15, R33). -/
  | readOfCommand
  /-- A write of `STATUS`, `EINFO0..2`, `LEVEL` or a `TABLE` entry, which are read-only (R33). -/
  | writeOfReadOnly
  /-- A value wider than the element's write port: it cannot be expressed at the port (R32). -/
  | valueTooWide
deriving DecidableEq, Repr

end Sys2Proof
end

