-- ==== Sys2Proof/WellFormed.lean ====
section
/-! DEFINITION. Which commands and port accesses are well formed: the register map of 20_memory.md R29
as two checks, stated apart from the decoder that follows it. -/

namespace Sys2Proof

/-- A command has no operand fields (30_encoding.md R57), so both are well formed as they stand. -/
def Instr.wellFormed : Instr → Bool
  | .dec => true
  | .enc => true

/-- The numbers a host may read (R29): every number of the space but `CMD` (21) and the reserved
27 to 31. -/
def readableNumber (n : Nat) : Bool :=
  n < 64 && n != 21 && !(27 ≤ n && n ≤ 31)

/-- The width of the write port of number `n`, for the numbers a host may write (R29, R38). -/
def writeWidth (n : Nat) : Option Nat :=
  if n < 8 then some 8        -- REC
  else if n < 20 then some 3  -- SYM
  else if n = 20 then some 4  -- LEN
  else if n = 21 then some 1  -- CMD
  else none

/-- A port access the register map gives a meaning (R29, R31, R32): a read of a readable number, a
write of a writable number with a value that its write port can carry, or the reset event. -/
def PortAccess.wellFormed : PortAccess → Bool
  | .read n => readableNumber n
  | .write n v =>
    match writeWidth n with
    | some w => v < 2 ^ w
    | none => false
  | .reset => true

end Sys2Proof
end

