-- ==== Sys2Proof/Decode.lean ====
section
/-! DEFINITION. Decoding what stands at the port (30_encoding.md R57, R61; 20_memory.md R29 to R33),
total and rejecting by name, and the encoder of the same tables. -/

namespace Sys2Proof

/-- The register number of `CMD` (R29). -/
def cmdNumber : Nat := 21

/-- The command format is one bit, and both values are used (R57). A wider value is no command. -/
def decodeInstr (v : Nat) : Option Instr :=
  if v = 0 then some .dec
  else if v = 1 then some .enc
  else none

/-- The value of `CMD` that runs a command (R57). -/
def encodeInstr : Instr → Nat
  | .dec => 0
  | .enc => 1

/-- `RegRead(n)`: which element `n` names, or why no element of that number can be read (R29, R33). -/
def decodeRead (n : Nat) : Except AccessReject Access :=
  if h : n < 8 then .ok (.rrec ⟨n, h⟩)
  else if h : n < 20 then .ok (.rsym ⟨n - 8, by omega⟩)
  else if n = 20 then .ok .rlen
  else if n = 21 then .error .readOfCommand
  else if n = 22 then .ok .rstat
  else if h : n < 26 then .ok (.rei ⟨n - 23, by omega⟩)
  else if n = 26 then .ok .rlvl
  else if n < 32 then .error .reservedNumber
  else if h : n < 64 then .ok (.rtab ⟨n - 32, by omega⟩)
  else .error .outsideSpace

/-- `RegWrite(n, v)`: which element `n` names, or why no element of that number can be written so
(R29, R32, R33). -/
def decodeWrite (n v : Nat) : Except AccessReject Access :=
  if h : n < 8 then
    if v < 2 ^ 8 then .ok (.wrec ⟨n, h⟩ (BitVec.ofNat 8 v)) else .error .valueTooWide
  else if h : n < 20 then
    if v < 2 ^ 3 then .ok (.wsym ⟨n - 8, by omega⟩ (BitVec.ofNat 3 v)) else .error .valueTooWide
  else if n = 20 then
    if v < 2 ^ 4 then .ok (.wlen (BitVec.ofNat 4 v)) else .error .valueTooWide
  else if n = 21 then
    match decodeInstr v with
    | some i => .ok (.cmd i)
    | none => .error .valueTooWide
  else if n < 27 then .error .writeOfReadOnly
  else if n < 32 then .error .reservedNumber
  else if n < 64 then .error .writeOfReadOnly
  else .error .outsideSpace

/-- The access that stands at the port (30_encoding.md R61, read from its encoding back). -/
def decodeAccess : PortAccess → Except AccessReject Access
  | .read n => decodeRead n
  | .write n v => decodeWrite n v
  | .reset => .ok .reset

/-- The instruction the decoder reads from a word of spec/opcode_table.json: the word is the value
written to `CMD`, and the decoder is given that port access. The word carries all its bits itself, so
the number of bits the table gives the row is not needed. -/
def decodeTableWord (_nbits w : Nat) : Option Instr :=
  match decodeAccess (.write cmdNumber w) with
  | .ok (.cmd i) => some i
  | _ => none

/-- The encoding of an access: its kind, register number and value (30_encoding.md R61). -/
def encodeAccess : Access → PortAccess
  | .wrec f v => .write f.val v.toNat
  | .wsym k v => .write (8 + k.val) v.toNat
  | .wlen n => .write 20 n.toNat
  | .cmd i => .write cmdNumber (encodeInstr i)
  | .rrec f => .read f.val
  | .rsym k => .read (8 + k.val)
  | .rlen => .read 20
  | .rstat => .read 22
  | .rei j => .read (23 + j.val)
  | .rlvl => .read 26
  | .rtab i => .read (32 + i.val)
  | .reset => .reset

end Sys2Proof
end

