-- ==== Sys2Proof/Machine/State.lean ====
section
/-! DEFINITION. The state of a BFAC block and of its host's port (10_state.md R10), the error values of
a command, and the reasons a step can stop. -/

namespace Sys2Proof.Machine

/-- The error value of a command that failed, with its arguments: the source's taxonomy, closed
(30_encoding.md R56; 60_exceptions.md R107 to R111). An error is a RESULT, not a stop: the command
ends, reports it in `STATUS` and `EINFO0..2`, and the block goes on (R107). -/
inductive CommandError where
  /-- `EmptyPassword()`, code 1: a `DEC` with `LEN = 0` (R108). -/
  | emptyPassword
  /-- `ChecksumMismatch(computed, found)`, code 2 (R109). -/
  | checksumMismatch (computed found : Symbol)
  /-- `FieldOutOfBounds(field, value, max)`, code 3 (R110). -/
  | fieldOutOfBounds (field : Fin 8) (value max : Byte)
  /-- `GatingViolation(field, required_min_level)`, code 4 (R111). -/
  | gatingViolation (field : Fin 8) (requiredMinLevel : Byte)
deriving DecidableEq, Repr

/-- What a read returned to the host: the register number read, and the element's value seen as an
8-bit value (20_memory.md R31; no element is wider than 8 bits, R34). -/
structure Answer where
  number : Nat
  value : Byte
deriving DecidableEq, Repr

/-- The state: R10's registers of the block, then the host's side of the port (the model's own). -/
structure State where
  /-- `REC[0..7]`: `level, lives, birds, pharts, enemas, willies, era, seed` (R11, R12). -/
  record : Vector Byte 8
  /-- `SYM[0..11]`: the password buffer, first symbol in slot 0 (R13). -/
  sym : Vector Symbol 12
  /-- `LEN`: the number of symbols of the password, checksum included (R14). -/
  len : LenWord
  /-- `STATUS`: the result of the last command (R16). -/
  status : StatusWord
  /-- `EINFO0`: first argument of the last error (R17). -/
  einfo0 : Byte
  /-- `EINFO1`: second argument of the last error (R17). -/
  einfo1 : Byte
  /-- `EINFO2`: third argument of the last error (R17). -/
  einfo2 : Byte
  /-- `TABLE[0..31]`: the Lookup Table, which nothing writes (R18, R26). -/
  table : Vector TableEntry 32
  /-- The model's own: the accesses the host has still to make, in its program order (R30, R41).
  Log 1. -/
  pending : List PortAccess
  /-- The model's own: what the host's reads have returned, newest first (R31). Log 2. -/
  answers : List Answer
deriving DecidableEq, Repr

/-- Reasons for which the machine stops with a fault: NONE. The four error kinds of the spec are
results in `STATUS` (R107), every command ends, and there is no hang and no stuck state
(70_reset_and_hazards.md R138). Nobody raises a fault; that is safe and unsafe for nothing. Log 11. -/
inductive Fault where
deriving DecidableEq, Repr

/-- Reasons for which the model gives a step no meaning (the refusals of 30_encoding.md R59). -/
inductive Refusal where
  /-- An arm of `exec` whose instruction has no meaning yet. Raised by no arm of this model. Safe:
  nothing can be proved of a step that is refused. -/
  | notModelled (mnemonic : String)
  /-- A `DEC` with `LEN` 13, 14 or 15, raised by `execDec` (42_decoder.md R77;
  93_implementation_defined.md U1). Safe: the spec gives the case no outcome. Log 5. -/
  | reservedLength
  /-- A port access that the register map gives no meaning, raised by `performPort`
  (20_memory.md R33; U3). Safe: the spec gives the access no result and no next state. Log 6. -/
  | access (why : AccessReject)
deriving DecidableEq, Repr

/-- The machine right after reset (10_state.md R25; 70_reset_and_hazards.md R126): every register 0,
`TABLE` what the block is built with (R127), and a host that has made no access yet (log 7). -/
def State.reset : State where
  record := Vector.replicate 8 0#8
  sym := Vector.replicate 12 0#3
  len := 0#4
  status := 0#4
  einfo0 := 0#8
  einfo1 := 0#8
  einfo2 := 0#8
  table := Config.table
  pending := []
  answers := []

end Sys2Proof.Machine
end

