-- ==== Sys2Proof/Machine/Checksum.lean ====
section
/-! DEFINITION. The Checksum Function `CHK` (40_checksum.md R64). -/

namespace Sys2Proof.Machine

/-- One step of `CHK`: the 8-bit accumulator takes a symbol, modulo 256 (R64). -/
def checksumStep (acc : Byte) (v : Symbol) : Byte := acc + v.setWidth 8

/-- `CHK(v)`: the low three bits of the 8-bit sum of the symbols; 0 for no symbols (R64). -/
def checksum (v : List Symbol) : Symbol := (v.foldl checksumStep 0#8).extractLsb' 0 3

end Sys2Proof.Machine
end

