-- ==== Sys2Proof/Machine/Flags.lean ====
section
/-! DEFINITION. The only status bits BFAC has (10_state.md R21): the fields of `STATUS` and the words
that a command's result puts into `STATUS` and `EINFO0..2`. -/

namespace Sys2Proof.Machine

/-- `STATUS.OK`, bit 0 (R16). -/
def statusOk (w : StatusWord) : Bool := w.getLsbD 0

/-- `STATUS.ERR`, bits 3:1 (R16). -/
def statusErr (w : StatusWord) : BitVec 3 := w.extractLsb' 1 3

/-- A `STATUS` word put together from its two fields (R16, R55). -/
def statusWord (ok : Bool) (err : BitVec 3) : StatusWord := err ++ BitVec.ofBool ok

/-- The error kind codes (30_encoding.md R56). -/
def errorCode : CommandError → BitVec 3
  | .emptyPassword => 1#3
  | .checksumMismatch _ _ => 2#3
  | .fieldOutOfBounds _ _ _ => 3#3
  | .gatingViolation _ _ => 4#3

/-- A field index as the byte an `EINFO` register holds (R17). -/
def fieldByte (f : Fin 8) : Byte := BitVec.ofNat 8 f.val

/-- What an error records in `EINFO0` (10_state.md R17; 60_exceptions.md R108 to R111). -/
def errorInfo0 : CommandError → Byte
  | .emptyPassword => 0#8
  | .checksumMismatch computed _ => computed.setWidth 8
  | .fieldOutOfBounds field _ _ => fieldByte field
  | .gatingViolation field _ => fieldByte field

/-- What an error records in `EINFO1` (R17, R108 to R111). -/
def errorInfo1 : CommandError → Byte
  | .emptyPassword => 0#8
  | .checksumMismatch _ found => found.setWidth 8
  | .fieldOutOfBounds _ value _ => value
  | .gatingViolation _ requiredMinLevel => requiredMinLevel

/-- What an error records in `EINFO2` (R17, R108 to R111). -/
def errorInfo2 : CommandError → Byte
  | .emptyPassword => 0#8
  | .checksumMismatch _ _ => 0#8
  | .fieldOutOfBounds _ _ max => max
  | .gatingViolation _ _ => 0#8

end Sys2Proof.Machine
end

