-- ==== Sys2Proof/Machine/Operands.lean ====
section
/-! DEFINITION. The operand forms of the two commands: the halves of a table entry, the place of a
payload bit, the slots of a password and its effective payload (30_encoding.md R46 to R53). -/

namespace Sys2Proof.Machine

/-- `TABLE[i].field`, bits 5:3 of an entry: the record field the payload bit controls (R52). -/
def entryField (e : TableEntry) : Fin 8 := (e.extractLsb' 3 3).toFin

/-- `TABLE[i].shift`, bits 2:0 of an entry: the bit of that field (R52). -/
def entryShift (e : TableEntry) : Fin 8 := (e.extractLsb' 0 3).toFin

/-- The symbol that payload bit `i` belongs to: `i div 3`, at most 10 (20_memory.md R35). -/
def bitSlot (i : Fin 32) : Fin 12 := ⟨i.val / 3, by omega⟩

/-- The position of payload bit `i` in its symbol: `i mod 3` (20_memory.md R35). -/
def bitPlace (i : Fin 32) : Nat := i.val % 3

/-- The slot of the checksum symbol, `LEN - 1`, of a password of length 1 to 12 (R46); `none` for the
empty length 0 and for the reserved lengths 13, 14, 15, whose slot does not exist (R59). -/
def checksumSlot (n : LenWord) : Option (Fin 12) :=
  if h : 1 ≤ n.toNat ∧ n.toNat ≤ 12 then some ⟨n.toNat - 1, by omega⟩ else none

/-- `SYM[0..LEN-2]`, the payload symbols below the checksum slot `c` (R46). -/
def payloadSymbols (sym : Vector Symbol 12) (c : Fin 12) : List Symbol := sym.toList.take c.val

/-- `pay(k)`: the effective payload, zero from the checksum slot on (R47). -/
def payloadSymbol (sym : Vector Symbol 12) (c k : Fin 12) : Symbol :=
  if k < c then sym[k] else 0#3

/-- Payload bit `i` of a password with checksum slot `c` (R48). -/
def payloadBit (sym : Vector Symbol 12) (c : Fin 12) (i : Fin 32) : Bool :=
  (payloadSymbol sym c (bitSlot i)).getLsbD (bitPlace i)

/-- The record bit a table entry names: `REC[field][shift]` (R53). -/
def recordBit (r : Vector Byte 8) (e : TableEntry) : Bool :=
  r[entryField e].getLsbD (entryShift e).val

/-- The indices 0 to 31 in ascending order: the bound is 32, never 33 (R49). -/
def payloadIndices : List (Fin 32) := List.finRange 32

end Sys2Proof.Machine
end

