-- ==== Sys2Proof/Machine/Ops.lean ====
section
/-! DEFINITION. The named operations on the state: reading and writing one element of the register
space, how a command ends (with an error or with success), and the reset event. -/

namespace Sys2Proof.Machine

/-! ### Writing one element (20_memory.md R32): it changes nothing else and checks nothing -/

/-- `REC[f] <- v`. -/
def writeRec (f : Fin 8) (v : Byte) (s : State) : State := { s with record := s.record.set f v }

/-- `SYM[k] <- v`. -/
def writeSym (k : Fin 12) (v : Symbol) (s : State) : State := { s with sym := s.sym.set k v }

/-- `LEN <- n`. -/
def writeLen (n : LenWord) (s : State) : State := { s with len := n }

/-! ### Replacing a whole operand: what a command commits on success, and the host's list -/

/-- All eight `REC[f]` at once (42_decoder.md R80). -/
def putRecord (r : Vector Byte 8) (s : State) : State := { s with record := r }

/-- All twelve `SYM[k]` and `LEN` at once (43_encoder.md R90). -/
def putPassword (p : Vector Symbol 12) (n : LenWord) (s : State) : State :=
  { s with sym := p, len := n }

/-- The accesses the host has still to make: no register of the block. -/
def putPending (ps : List PortAccess) (s : State) : State := { s with pending := ps }

/-! ### Reading one element (20_memory.md R31) -/

/-- `EINFOj` (R17). -/
def readEinfo (j : Fin 3) (s : State) : Byte :=
  match j with
  | 0 => s.einfo0
  | 1 => s.einfo1
  | 2 => s.einfo2

/-- `LEVEL`: it holds no state of its own and returns `REC[0]` at every moment (R19). -/
def readLevel (s : State) : Byte := s.record[0]

/-- The value an access reads, zero-extended to 8 bits; `none` for an access that reads nothing. -/
def accessValue (a : Access) (s : State) : Option Byte :=
  match a with
  | .rrec f => some s.record[f]
  | .rsym k => some (s.sym[k].setWidth 8)
  | .rlen => some (s.len.setWidth 8)
  | .rstat => some (s.status.setWidth 8)
  | .rei j => some (readEinfo j s)
  | .rlvl => some (readLevel s)
  | .rtab i => some (s.table[i].setWidth 8)
  | .wrec _ _ => none
  | .wsym _ _ => none
  | .wlen _ => none
  | .cmd _ => none
  | .reset => none

/-- `RegRead(n)` as a value: what a read of number `n` returns, `none` where the map refuses the read
(R29, R31, R33). -/
def registerValue (n : Nat) (s : State) : Option Byte :=
  match decodeRead n with
  | .ok a => accessValue a s
  | .error _ => none

/-- A read of number `n` returned `v` to the host: no register of the block changes (R31). -/
def answer (n : Nat) (v : Byte) (s : State) : State :=
  { s with answers := ⟨n, v⟩ :: s.answers }

/-! ### How a command ends -/

/-- Error entry, `raise E(info)` (60_exceptions.md R112): `STATUS.OK <- 0`, `STATUS.ERR <-` the code,
`EINFO0..2 <-` the arguments, and nothing else. There is no handler, no mode and no saved state, and no
return from it (R117): the next command's end, or reset, overwrites the four registers. -/
def raiseError (e : CommandError) (s : State) : State :=
  { s with
    status := statusWord false (errorCode e)
    einfo0 := errorInfo0 e
    einfo1 := errorInfo1 e
    einfo2 := errorInfo2 e }

/-- Successful completion, `succeed` (60_exceptions.md R113): `STATUS.OK <- 1`, `STATUS.ERR <- 0`,
`EINFO0..2 <- 0`. -/
def succeed (s : State) : State :=
  { s with status := statusWord true 0#3, einfo0 := 0#8, einfo1 := 0#8, einfo2 := 0#8 }

/-! ### Reset -/

/-- The reset event (70_reset_and_hazards.md R125, R126): every register takes its reset value at once.
`TABLE` keeps its contents (R127), and the host's side of the port is no part of the block (log 10). -/
def resetBlock (s : State) : State :=
  { State.reset with table := s.table, pending := s.pending, answers := s.answers }

end Sys2Proof.Machine
end

