-- ==== Sys2Proof/Machine/Validator.lean ====
section
/-! DEFINITION. The Validator `VAL` (41_validator.md R68): eight bounds checks, then four gating checks,
the first failing check ending it. Both commands use this one. -/

namespace Sys2Proof.Machine

/-- `MAX[f]`, the upper bound of field `f` (00_scope.md R5; 41_validator.md R69). Unaudited: log 8. -/
def fieldMax (f : Fin 8) : Byte := #v[31#8, 99#8, 7#8, 7#8, 7#8, 7#8, 3#8, 48#8][f]

/-- `GATE_WILLIES` (00_scope.md R5). -/
def gateWillies : Byte := 13#8

/-- `GATE_ENEMAS` (00_scope.md R5). -/
def gateEnemas : Byte := 10#8

/-- `GATE_PHARTS_BIRDS` (00_scope.md R5). -/
def gatePhartsBirds : Byte := 3#8

/-- The bounds check of field `f`: it fails exactly when `r[f] > MAX[f]`, unsigned (R69). -/
def boundsViolation (r : Vector Byte 8) (f : Fin 8) : Option CommandError :=
  if fieldMax f < r[f] then some (.fieldOutOfBounds f r[f] (fieldMax f)) else none

/-- The shape of the gating checks: field `f` is not 0 and the level is below `gate` (R70 to R73). -/
def gateViolation (f : Fin 8) (gate : Byte) (r : Vector Byte 8) : Option CommandError :=
  if r[f] ≠ 0#8 ∧ r[0] < gate then some (.gatingViolation f gate) else none

/-- The gating check for `willies` (R70). -/
def williesViolation (r : Vector Byte 8) : Option CommandError := gateViolation 5 gateWillies r

/-- The gating check for `enemas` (R71). -/
def enemasViolation (r : Vector Byte 8) : Option CommandError := gateViolation 4 gateEnemas r

/-- The gating check for `pharts` (R72). -/
def phartsViolation (r : Vector Byte 8) : Option CommandError := gateViolation 3 gatePhartsBirds r

/-- The gating check for `birds` (R73). -/
def birdsViolation (r : Vector Byte 8) : Option CommandError := gateViolation 2 gatePhartsBirds r

/-- The first failing bounds check, in field-index order (R69). -/
def firstBoundsViolation (r : Vector Byte 8) : Option CommandError :=
  (List.finRange 8).findSome? (boundsViolation r)

/-- The first failing gating check: `willies`, `enemas`, `pharts`, `birds` (R70 to R73). -/
def firstGatingViolation (r : Vector Byte 8) : Option CommandError :=
  (williesViolation r).or ((enemasViolation r).or ((phartsViolation r).or (birdsViolation r)))

/-- `VAL(r)`: `none` is `pass`, `some e` is `fail e` (R68, R74). -/
def validate (r : Vector Byte 8) : Option CommandError :=
  (firstBoundsViolation r).or (firstGatingViolation r)

end Sys2Proof.Machine
end

