-- ==== Sys2Proof/Machine/Decoder.lean ====
section
/-! DEFINITION. The Decoder: the command `DEC` (42_decoder.md R76). -/

namespace Sys2Proof.Machine

/-- Set the field bit a table entry names, by OR: it is never cleared by a later entry (R79, R82). -/
def setRecordBit (w : Vector Byte 8) (e : TableEntry) : Vector Byte 8 :=
  w.set (entryField e) (w[entryField e] ||| (1#8 <<< (entryShift e).val))

/-- Steps 3 to 5 of `DEC` (R79): the working record `W`, from all zero, over the payload bits 0 to 31. -/
def accumulate (table : Vector TableEntry 32) (sym : Vector Symbol 12) (c : Fin 12) :
    Vector Byte 8 :=
  payloadIndices.foldl (fun w i => if payloadBit sym c i then setRecordBit w table[i] else w)
    (Vector.replicate 8 0#8)

/-- Step 6 of `DEC` (R80): validate the working record, then commit it or raise the violation. -/
def commitRecord (w : Vector Byte 8) (s : State) : State :=
  match validate w with
  | some e => raiseError e s
  | none => succeed (putRecord w s)

/-- `DEC` on a password whose checksum symbol stands in slot `c = LEN - 1` (R78 to R80). -/
def decodePassword (c : Fin 12) (s : State) : State :=
  let computed := checksum (payloadSymbols s.sym c)
  let found := s.sym[c]
  if computed ≠ found then raiseError (.checksumMismatch computed found) s
  else commitRecord (accumulate s.table s.sym c) s

/-- `DEC` (R76). Length 0 raises `EmptyPassword` and reads no symbol (R77); lengths 13, 14, 15 are
reserved and the command is refused (R77, R59; log 5). -/
def execDec (s : State) : Host.Outcome State Fault Refusal :=
  if s.len = 0#4 then .next (raiseError .emptyPassword s)
  else
    match checksumSlot s.len with
    | some c => .next (decodePassword c s)
    | none => .refused .reservedLength

end Sys2Proof.Machine
end

