-- ==== Sys2Proof/Machine/Encoder.lean ====
section
/-! DEFINITION. The Encoder: the command `ENC` (43_encoder.md R85). -/

namespace Sys2Proof.Machine

/-- Set payload bit `i` in the buffer: bit `i mod 3` of symbol `i div 3`, by OR (R87). -/
def setPayloadBit (b : Vector Symbol 12) (i : Fin 32) : Vector Symbol 12 :=
  b.set (bitSlot i) (b[bitSlot i] ||| (1#3 <<< bitPlace i))

/-- Steps 2 and 3 of `ENC` (R87): the working buffer `B`, from all zero, over the payload bits 0 to
31. -/
def scatter (table : Vector TableEntry 32) (r : Vector Byte 8) : Vector Symbol 12 :=
  payloadIndices.foldl (fun b i => if recordBit r table[i] then setPayloadBit b i else b)
    (Vector.replicate 12 0#3)

/-- Step 5 of `ENC` (R89): the slot after the last symbol that is not 0, scanned for from the end, and
slot 0 when all are 0. -/
def freeSlot (b : Vector Symbol 12) : Nat :=
  match (List.finRange 12).reverse.find? (fun k => b[k] != 0#3) with
  | some k => k.val + 1
  | none => 0

/-- Steps 4 to 6 of `ENC` and the commit (R88 to R90): the checksum of the whole buffer, written into
the free slot, then all twelve slots and the length. The slot is at most 11 (R91), so the write is
always inside the buffer (log 13). -/
def commitPassword (b : Vector Symbol 12) (s : State) : State :=
  let slot := freeSlot b
  succeed (putPassword (b.setIfInBounds slot (checksum b.toList)) (BitVec.ofNat 4 (slot + 1)) s)

/-- What `ENC` leaves (R85): the first violation of `REC` raised (R86), or the password committed. -/
def encodeRecord (s : State) : State :=
  match validate s.record with
  | some e => raiseError e s
  | none => commitPassword (scatter s.table s.record) s

/-- `ENC` (R85). -/
def execEnc (s : State) : Host.Outcome State Fault Refusal := .next (encodeRecord s)

end Sys2Proof.Machine
end

