-- ==== Sys2Proof/Machine/HostPort.lean ====
section
/-! DEFINITION. What one host access does (20_memory.md R30 to R33; 30_encoding.md R61), and where the
next one comes from. -/

namespace Sys2Proof.Machine

/-- The effect of an access the map allows. A write sets one element (R32), a write of `CMD` runs a
command to its end (R15, R38), a read answers the host and changes no register (R31), and reset is one
event (R125). -/
def performAccess (a : Access) (s : State) : Host.Outcome State Fault Refusal :=
  match a with
  | .wrec f v => .next (writeRec f v s)
  | .wsym k v => .next (writeSym k v s)
  | .wlen n => .next (writeLen n s)
  | .cmd i => exec i s
  | .rrec f => .next (answer f.val s.record[f] s)
  | .rsym k => .next (answer (8 + k.val) (s.sym[k].setWidth 8) s)
  | .rlen => .next (answer 20 (s.len.setWidth 8) s)
  | .rstat => .next (answer 22 (s.status.setWidth 8) s)
  | .rei j => .next (answer (23 + j.val) (readEinfo j s) s)
  | .rlvl => .next (answer 26 (readLevel s) s)
  | .rtab i => .next (answer (32 + i.val) (s.table[i].setWidth 8) s)
  | .reset => .next (resetBlock s)

/-- The effect of what stands at the port: decode it, refuse what the map does not allow (R33), and
perform the rest. -/
def performPort (p : PortAccess) (s : State) : Host.Outcome State Fault Refusal :=
  match decodeAccess p with
  | .ok a => performAccess a s
  | .error why => .refused (.access why)

/-- The host's next access, in its program order, and the state once it is taken from the port (R41);
`none` when the host is making none. -/
def nextAccess (s : State) : Option (PortAccess × State) :=
  match s.pending with
  | [] => none
  | p :: rest => some (p, putPending rest s)

/-- Put one access before the others the host has to make. -/
def presentAccess (p : PortAccess) (s : State) : State := putPending (p :: s.pending) s

end Sys2Proof.Machine
end

