-- ==== Sys2Proof/Machine/Step.lean ====
section
/-! DEFINITION. One step: one host access, a command being one access (20_memory.md R38). -/

namespace Sys2Proof.Machine

/-- One step of the machine. The block acts only when the host makes an access; between events the
state holds (10_state.md R27; 20_memory.md R30; log 3). -/
def step (s : State) : Host.Outcome State Fault Refusal :=
  match nextAccess s with
  | none => .next s
  | some (p, s') => performPort p s'

/-- `s` with the command word `w` standing where `step` takes its next instruction from: the host is
about to write `w` to `CMD`. The word carries all its bits itself, so `_nbits` is not needed. -/
def State.withFetchWord (s : State) (_nbits w : Nat) : State := presentAccess (.write cmdNumber w) s

end Sys2Proof.Machine
end

