-- ==== Sys2Proof/Machine/Blocks.lean ====
section
/-! DEFINITION. Several blocks, each with its own registers and its own host (60_exceptions.md R123). -/

namespace Sys2Proof.Machine

/-- One step of block `k` of several, started by that block's own host; the blocks do not start each
other and send each other nothing (R123). Which block moves next is the caller's to say (log 9). -/
def stepBlock (bs : List State) (k : Fin bs.length) : Host.Outcome (List State) Fault Refusal :=
  match step bs[k] with
  | .next t => .next (bs.set k.val t)
  | .fault r => .fault r
  | .refused r => .refused r

/-- The blocks hold the same `TABLE` (R26, R123). -/
def sameTable (bs : List State) : Prop := ∀ a ∈ bs, ∀ b ∈ bs, a.table = b.table

end Sys2Proof.Machine
end

