-- ==== Sys2Proof/Machine/HostProgram.lean ====
section
/-! DEFINITION. Host programs: lists of accesses, run in order, and the pseudo-operations of
30_encoding.md R62. -/

namespace Sys2Proof.Machine

/-- Go on from a next state; a fault or a refusal ends the program. -/
def andThen (o : Host.Outcome State Fault Refusal)
    (k : State → Host.Outcome State Fault Refusal) : Host.Outcome State Fault Refusal :=
  match o with
  | .next s => k s
  | .fault r => .fault r
  | .refused r => .refused r

/-- A host program: each access takes effect in turn, in program order (20_memory.md R41). -/
def runAccesses : List Access → State → Host.Outcome State Fault Refusal
  | [], s => .next s
  | a :: rest, s => andThen (performAccess a s) (runAccesses rest)

/-- `LDPW [s0, ..., s(n-1)]`: the symbols into the slots from 0 on, then the length. It does not touch
the slots from `n` on (R62). -/
def ldpw (p : List Symbol) (h : p.length ≤ 12) : List Access :=
  (List.finRange p.length).map (fun k => .wsym ⟨k.val, by omega⟩ p[k])
    ++ [.wlen (BitVec.ofNat 4 p.length)]

/-- `LDREC` of eight field values, in field order (R62). -/
def ldrec (r : Vector Byte 8) : List Access := (List.finRange 8).map (fun f => .wrec f r[f])

/-- `REI 0` to `REI 2` (R62). -/
def readErrorInfo : List Access := [.rei 0, .rei 1, .rei 2]

/-- `RREC 0` to `RREC 7` (R62). -/
def readRecord : List Access := (List.finRange 8).map .rrec

/-- `RLEN` and `RSYM 0` to `RSYM LEN-1`, `n` being the length read (R62). -/
def readPassword (n : LenWord) : List Access :=
  .rlen :: (((List.finRange 12).filter (fun k => k.val < n.toNat)).map .rsym)

/-- The pseudo-operation `decode [s0, ..., s(n-1)]` (R62): load, `DEC`, `RSTAT`, then the record when
`OK = 1` and the error arguments when `OK = 0`. -/
def decodeCall (p : List Symbol) (h : p.length ≤ 12) (s : State) :
    Host.Outcome State Fault Refusal :=
  andThen (runAccesses (ldpw p h ++ [.cmd .dec, .rstat]) s) fun t =>
    runAccesses (if statusOk t.status then readRecord else readErrorInfo) t

/-- The pseudo-operation `encode` of eight field values (R62): load, `ENC`, `RSTAT`, then the password
when `OK = 1` and the error arguments when `OK = 0`. -/
def encodeCall (r : Vector Byte 8) (s : State) : Host.Outcome State Fault Refusal :=
  andThen (runAccesses (ldrec r ++ [.cmd .enc, .rstat]) s) fun t =>
    runAccesses (if statusOk t.status then readPassword t.len else readErrorInfo) t

end Sys2Proof.Machine
end

