-- ==== Sys2Proof/Safety.lean ====
section
/-! DEFINITION. The terms claims are made in: what the rules of spec/ call a valid record, a right
checksum, an assembled record or password, a canonical password, a legal result, and the condition WF2
on `TABLE`. They are written from the rules' formulas, apart from the machine's loops and scans. -/

namespace Sys2Proof.Machine

/-! ### Records -/

/-- The upper bounds of the eight fields, in field order (00_scope.md R5). -/
def recordBounds : Vector Byte 8 := #v[31#8, 99#8, 7#8, 7#8, 7#8, 7#8, 3#8, 48#8]

/-- Every field is at most its bound (41_validator.md R69). -/
abbrev WithinBounds (r : Vector Byte 8) : Prop := ∀ f : Fin 8, r[f] ≤ recordBounds[f]

/-- Some gating check fails, and the first that does, in the order `willies`, `enemas`, `pharts`,
`birds`, reports field `f` and level `gate` (41_validator.md R70 to R73). -/
abbrev FirstGateFailure (r : Vector Byte 8) (f : Fin 8) (gate : Byte) : Prop :=
  if r[5] ≠ 0#8 ∧ r[0] < 13#8 then f = 5 ∧ gate = 13#8
  else if r[4] ≠ 0#8 ∧ r[0] < 10#8 then f = 4 ∧ gate = 10#8
  else if r[3] ≠ 0#8 ∧ r[0] < 3#8 then f = 3 ∧ gate = 3#8
  else r[2] ≠ 0#8 ∧ r[0] < 3#8 ∧ f = 2 ∧ gate = 3#8

/-- A valid record, as 41_validator.md R75 lists the twelve conditions. -/
abbrev ValidRecord (r : Vector Byte 8) : Prop :=
  r[0] ≤ 31#8 ∧ r[1] ≤ 99#8 ∧ r[2] ≤ 7#8 ∧ r[3] ≤ 7#8 ∧ r[4] ≤ 7#8 ∧ r[5] ≤ 7#8 ∧ r[6] ≤ 3#8 ∧
  r[7] ≤ 48#8 ∧ (r[5] = 0#8 ∨ 13#8 ≤ r[0]) ∧ (r[4] = 0#8 ∨ 10#8 ≤ r[0]) ∧
  (r[3] = 0#8 ∨ 3#8 ≤ r[0]) ∧ (r[2] = 0#8 ∨ 3#8 ≤ r[0])

/-! ### The table -/

/-- How many low bits of field `f` some valid record can have set (30_encoding.md R51). -/
def significantBits (f : Fin 8) : Nat := #v[5, 7, 3, 3, 3, 3, 2, 6][f]

/-- The pair `(f, b)` is in `S`, the 32 field bits that some valid record can have set
(00_scope.md R7). -/
abbrev InS (f b : Fin 8) : Prop := b.val < significantBits f

/-- `TABLE` names bit `b` of field `f` (the set `I` of 44_laws.md R94). -/
abbrev TableNames (table : Vector TableEntry 32) (f b : Fin 8) : Prop :=
  ∃ i : Fin 32, entryField table[i] = f ∧ entryShift table[i] = b

/-- WF2: `TABLE` is a bijection from the indices 0 to 31 onto `S` (00_scope.md R7). -/
abbrev WF2 (table : Vector TableEntry 32) : Prop :=
  (∀ i j : Fin 32, table[i] = table[j] → i = j) ∧
  (∀ i : Fin 32, InS (entryField table[i]) (entryShift table[i])) ∧
  (∀ f b : Fin 8, InS f b → TableNames table f b)

/-! ### Passwords -/

/-- The arithmetic sum of symbol values (40_checksum.md R65). -/
def symbolSum (v : List Symbol) : Nat := (v.map BitVec.toNat).sum

/-- `n` is 1 to 12, and `SYM[n-1]` is the sum of `SYM[0..n-2]` modulo 8 (42_decoder.md R78). -/
abbrev RightChecksum (sym : Vector Symbol 12) (n : Nat) : Prop :=
  ∃ c : Fin 12, c.val + 1 = n ∧ symbolSum (sym.toList.take c.val) % 8 = sym[c].toNat

/-- Payload bit `i` of a password of length `n` is 1 (30_encoding.md R47, R48). -/
abbrev PayloadBitSet (sym : Vector Symbol 12) (n : Nat) (i : Fin 32) : Prop :=
  i.val / 3 + 1 < n ∧ (sym[i.val / 3]'(by omega)).getLsbD (i.val % 3) = true

/-- `w` is the field assembly of a password of length `n` (30_encoding.md R54). -/
abbrev AssembledRecord (table : Vector TableEntry 32) (sym : Vector Symbol 12) (n : Nat)
    (w : Vector Byte 8) : Prop :=
  ∀ f b : Fin 8, w[f].getLsbD b.val = true ↔
    ∃ i : Fin 32, entryField table[i] = f ∧ entryShift table[i] = b ∧ PayloadBitSet sym n i

/-- `p` is the password assembly of a record (30_encoding.md R54). -/
abbrev AssembledPayload (table : Vector TableEntry 32) (r : Vector Byte 8)
    (p : Vector Symbol 12) : Prop :=
  ∀ (k : Fin 12) (b : Fin 3), p[k].getLsbD b.val = true ↔
    ∃ i : Fin 32, i.val / 3 = k.val ∧ i.val % 3 = b.val ∧
      r[entryField table[i]].getLsbD (entryShift table[i]).val = true

/-- `slot` is the one after the last symbol of `p` that is not 0, or 0 when all are
(43_encoder.md R89). -/
abbrev IsChecksumSlot (p : Vector Symbol 12) (slot : Fin 12) : Prop :=
  (∀ k : Fin 12, slot ≤ k → p[k] = 0#3) ∧
  (slot = 0 ∨ ∃ k : Fin 12, k.val + 1 = slot.val ∧ p[k] ≠ 0#3)

/-- The four properties of a canonical password (44_laws.md R98): a length 1 to 12 with a right
checksum, no trailing zero payload symbol, and the ignored bit clear when the length is 12. -/
abbrev CanonicalPassword (s : State) : Prop :=
  RightChecksum s.sym s.len.toNat ∧
  (∀ k : Fin 12, k.val + 2 = s.len.toNat → s.sym[k] ≠ 0#3) ∧
  (s.len = 12#4 → s.sym[10].getLsbD 2 = false)

/-- Two states hold the same password: the same length and the same symbols below it. -/
abbrev SamePassword (s t : State) : Prop :=
  s.len = t.len ∧ ∀ k : Fin 12, k.val < s.len.toNat → s.sym[k] = t.sym[k]

/-! ### Results -/

/-- `s` with the four result registers replaced, and nothing else (60_exceptions.md R112, R113). -/
def withResult (s : State) (status : StatusWord) (e0 e1 e2 : Byte) : State :=
  { s with status := status, einfo0 := e0, einfo1 := e1, einfo2 := e2 }

/-- The last command succeeded (60_exceptions.md R113). -/
abbrev Succeeded (s : State) : Prop :=
  s.status = 0b0001#4 ∧ s.einfo0 = 0#8 ∧ s.einfo1 = 0#8 ∧ s.einfo2 = 0#8

/-- The result registers show that no command has run since reset (10_state.md R16, R25). -/
abbrev NoCommandHasRun (s : State) : Prop :=
  s.status = 0b0000#4 ∧ s.einfo0 = 0#8 ∧ s.einfo1 = 0#8 ∧ s.einfo2 = 0#8

/-- The result registers of two states are equal. -/
abbrev SameResult (s t : State) : Prop :=
  s.status = t.status ∧ s.einfo0 = t.einfo0 ∧ s.einfo1 = t.einfo1 ∧ s.einfo2 = t.einfo2

/-- `STATUS` and `EINFO0..2` show one of the results the block produces (10_state.md R16, R17;
30_encoding.md R55; 60_exceptions.md R108 to R111, R113; 93_implementation_defined.md U7). -/
abbrev LegalResult (s : State) : Prop :=
  NoCommandHasRun s ∨ Succeeded s ∨
  (s.status = 0b0010#4 ∧ s.einfo0 = 0#8 ∧ s.einfo1 = 0#8 ∧ s.einfo2 = 0#8) ∨
  (s.status = 0b0100#4 ∧ s.einfo0 < 8#8 ∧ s.einfo1 < 8#8 ∧ s.einfo0 ≠ s.einfo1 ∧ s.einfo2 = 0#8) ∨
  (s.status = 0b0110#4 ∧ s.einfo2 < s.einfo1 ∧
    ∃ f : Fin 8, s.einfo0.toNat = f.val ∧ s.einfo2 = recordBounds[f]) ∨
  (s.status = 0b1000#4 ∧ s.einfo2 = 0#8 ∧
    ((s.einfo0 = 5#8 ∧ s.einfo1 = 13#8) ∨ (s.einfo0 = 4#8 ∧ s.einfo1 = 10#8) ∨
     (s.einfo0 = 3#8 ∧ s.einfo1 = 3#8) ∨ (s.einfo0 = 2#8 ∧ s.einfo1 = 3#8)))

/-! ### The pair of commands -/

/-- `LDREC r; ENC; DEC` ends with `STATUS = 1` after each command, `REC = r` and `LEVEL = r[0]`
(44_laws.md R93). -/
def RoundTrips (s : State) (r : Vector Byte 8) : Prop :=
  ∃ t u : State,
    runAccesses (ldrec r ++ [.cmd .enc]) s = .next t ∧ t.status = 0b0001#4 ∧
    runAccesses [.cmd .dec] t = .next u ∧ u.status = 0b0001#4 ∧
    u.record = r ∧ registerValue 26 u = some r[0]

/-- The password of `t` without its checksum symbol, symbol `k`: 0 from the checksum slot on
(30_encoding.md R47). -/
def effectiveSymbol (t : State) (k : Fin 12) : Symbol :=
  if k.val + 1 < t.len.toNat then t.sym[k] else 0#3

end Sys2Proof.Machine
end

