-- ==== Sys2Proof/Certificates/Slice0/Obligations.lean ====
section
/-! DEFINITION. The statements for the provers. Each docstring names the rule of spec/ it formalises.
Every statement holds of every `TABLE` (`State.table` is any value), unless it takes `WF2`. -/

open Sys2Proof Sys2Proof.Machine

/-! ### Port, encodings and steps -/

/-- 30_encoding.md R61: an access and its encoding determine each other. -/
def Obligations.AccessEncodingRoundTrips : Prop :=
  (∀ a : Access, decodeAccess (encodeAccess a) = .ok a) ∧
  (∀ (p : PortAccess) (a : Access), decodeAccess p = .ok a → encodeAccess a = p)

/-- 20_memory.md R29, R33: the decoder accepts exactly the accesses of the register map. -/
def Obligations.DecoderAcceptsExactlyTheRegisterMap : Prop :=
  ∀ p : PortAccess, (∃ a, decodeAccess p = .ok a) ↔ p.wellFormed = true

/-- 30_encoding.md R57: the two command words, at the port and as table words; wider words are none. -/
def Obligations.CommandWordsDecode : Prop :=
  decodeAccess (.write 21 0b0) = .ok (.cmd .dec) ∧ decodeAccess (.write 21 0b1) = .ok (.cmd .enc) ∧
  decodeTableWord 8 0b0 = some .dec ∧ decodeTableWord 8 0b1 = some .enc ∧
  ∀ w : Nat, 2 ≤ w → decodeTableWord 8 w = none

/-- 20_memory.md R41, R38: a step performs the host's next access, and a `CMD` write runs the command
it encodes on the state with that access taken. -/
def Obligations.StepPerformsTheDecodedAccess : Prop :=
  ∀ (s : State) (p : PortAccess) (rest : List PortAccess), s.pending = p :: rest →
    (∀ a, decodeAccess p = .ok a → step s = performAccess a (putPending rest s)) ∧
    (∀ i, decodeAccess p = .ok (.cmd i) → step s = exec i (putPending rest s))

/-- A command word placed where the next access is taken from is run by the very next step, on the
state it was placed in (30_encoding.md R57; log 1). -/
def Obligations.PresentedCommandWordRuns : Prop :=
  ∀ (s : State) (nbits w : Nat) (i : Instr), decodeTableWord nbits w = some i →
    step (s.withFetchWord nbits w) = exec i s

/-- 10_state.md R27, 20_memory.md R31: with no access the state holds, and a read only answers the
host, so that every register reads as before. -/
def Obligations.ReadsAndIdleStepsChangeNoRegister : Prop :=
  (∀ s : State, s.pending = [] → step s = .next s) ∧
  (∀ (s : State) (n : Nat) (v : Byte), registerValue n s = some v →
    performPort (.read n) s = .next { s with answers := ⟨n, v⟩ :: s.answers } ∧
    ∀ m, registerValue m { s with answers := ⟨n, v⟩ :: s.answers } = registerValue m s)

/-- 20_memory.md R32: a write sets its element and changes nothing else; the only other number that
shows it is `LEVEL` (26), for `REC[0]`. -/
def Obligations.WritesSetOneElement : Prop :=
  (∀ (s : State) (f : Fin 8) (v : Byte), ∃ t : State,
    performPort (.write f.val v.toNat) s = .next t ∧ t = { s with record := t.record } ∧
    registerValue f.val t = some v ∧
    ∀ n, n ≠ f.val → ¬(n = 26 ∧ f = 0) → registerValue n t = registerValue n s) ∧
  (∀ (s : State) (k : Fin 12) (v : Symbol), ∃ t : State,
    performPort (.write (8 + k.val) v.toNat) s = .next t ∧ t = { s with sym := t.sym } ∧
    registerValue (8 + k.val) t = some (v.setWidth 8) ∧
    ∀ n, n ≠ 8 + k.val → registerValue n t = registerValue n s) ∧
  (∀ (s : State) (v : LenWord), ∃ t : State,
    performPort (.write 20 v.toNat) s = .next t ∧ t = { s with len := t.len } ∧
    registerValue 20 t = some (v.setWidth 8) ∧
    ∀ n, n ≠ 20 → registerValue n t = registerValue n s)

/-- 20_memory.md R33: the accesses with no meaning are refused, each by its own name. -/
def Obligations.MeaninglessAccessesAreRefused : Prop :=
  ∀ (s : State) (n v : Nat),
    (n = 21 → performPort (.read n) s = .refused (.access .readOfCommand)) ∧
    ((22 ≤ n ∧ n ≤ 26) ∨ (32 ≤ n ∧ n ≤ 63) →
      performPort (.write n v) s = .refused (.access .writeOfReadOnly)) ∧
    (27 ≤ n ∧ n ≤ 31 →
      performPort (.read n) s = .refused (.access .reservedNumber) ∧
      performPort (.write n v) s = .refused (.access .reservedNumber))

/-- 20_memory.md R29, 10_state.md R19: which element each readable number names; `LEVEL` is `REC[0]`. -/
def Obligations.RegisterNumbersNameTheirElements : Prop :=
  ∀ s : State,
    (∀ f : Fin 8, registerValue f.val s = some s.record[f]) ∧
    (∀ k : Fin 12, registerValue (8 + k.val) s = some (s.sym[k].setWidth 8)) ∧
    registerValue 20 s = some (s.len.setWidth 8) ∧
    registerValue 22 s = some (s.status.setWidth 8) ∧
    registerValue 23 s = some s.einfo0 ∧ registerValue 24 s = some s.einfo1 ∧
    registerValue 25 s = some s.einfo2 ∧ registerValue 26 s = registerValue 0 s ∧
    (∀ i : Fin 32, registerValue (32 + i.val) s = some (s.table[i].setWidth 8))

/-- 70_reset_and_hazards.md R125, R126: reset is possible in every state, every register then reads 0,
`LEVEL` included, and every table entry reads as before. -/
def Obligations.ResetClearsEveryRegisterButTheTable : Prop :=
  ∀ s : State, ∃ t : State, performPort .reset s = .next t ∧
    (∀ n, n ≤ 26 → n ≠ 21 → registerValue n t = some 0#8) ∧
    (∀ n, 32 ≤ n → registerValue n t = registerValue n s) ∧
    t.pending = s.pending ∧ t.answers = s.answers

/-- 70_reset_and_hazards.md R127: `TABLE` keeps its values, whatever the host does and for how long. -/
def Obligations.TableKeepsItsValues : Prop :=
  (∀ s t : State, performPort .reset s = .next t → t.table = s.table) ∧
  (∀ (k : Nat) (s t : State), Sys2Proof.core.run k s = .next t → t.table = s.table)

/-- 20_memory.md R41: the steps of a host program are its accesses in program order. -/
def Obligations.StepsFollowProgramOrder : Prop :=
  ∀ (as : List Access) (rest : List PortAccess) (s : State),
    Sys2Proof.core.run as.length (putPending (as.map encodeAccess ++ rest) s) =
      runAccesses as (putPending rest s)

/-- 70_reset_and_hazards.md R138, 30_encoding.md R59: a step gives no next state exactly when the next
access has no meaning or is a `DEC` with a reserved length, and then it is refused. -/
def Obligations.StepsStopOnlyOnReservedCases : Prop :=
  ∀ s : State,
    ((∃ why, step s = .refused why) ↔ ∃ p rest, s.pending = p :: rest ∧
      (p.wellFormed = false ∨ (p = .write 21 0 ∧ 13 ≤ s.len.toNat))) ∧
    ((∃ t, step s = .next t) ↔ ¬ ∃ why, step s = .refused why)

/-- 60_exceptions.md R123: a step of one block leaves every other block as it is, steps of two blocks
commute, and blocks that hold the same `TABLE` go on doing so. -/
def Obligations.BlocksDoNotInteract : Prop :=
  (∀ (bs cs : List State) (k : Fin bs.length), stepBlock bs k = .next cs →
    cs.length = bs.length ∧ (∀ j, j ≠ k.val → cs[j]? = bs[j]?) ∧
    (∃ t, step bs[k] = .next t ∧ cs[k.val]? = some t) ∧ (sameTable bs → sameTable cs)) ∧
  (∀ (bs cs ds : List State) (j k : Fin bs.length) (hc : cs.length = bs.length)
    (hd : ds.length = bs.length), j ≠ k →
    stepBlock bs j = .next cs → stepBlock bs k = .next ds →
    stepBlock cs (Fin.cast hc.symm k) = stepBlock ds (Fin.cast hd.symm j))

/-- 30_encoding.md R62: `LDPW` and `LDREC` place their operands and touch nothing else. -/
def Obligations.LoadsPlaceTheirOperands : Prop :=
  (∀ (s : State) (p : List Symbol) (h : p.length ≤ 12), ∃ v : Vector Symbol 12,
    runAccesses (ldpw p h) s = .next (putPassword v (BitVec.ofNat 4 p.length) s) ∧
    ∀ k : Fin 12, v[k] = p.getD k.val s.sym[k]) ∧
  (∀ (s : State) (r : Vector Byte 8), runAccesses (ldrec r) s = .next (putRecord r s))

/-- 30_encoding.md R62: the pseudo-operation `decode` of at most 12 symbols is `LDPW`, then `DEC`, and it
returns `STATUS` and then the eight fields when `OK = 1`, the three error arguments when `OK = 0`
(newest answer first). -/
def Obligations.DecodeCallAnswersTheHost : Prop :=
  ∀ (s : State) (p : List Symbol) (h : p.length ≤ 12), ∃ loaded t : State,
    runAccesses (ldpw p h) s = .next loaded ∧ exec .dec loaded = .next t ∧
    decodeCall p h s = .next { t with answers :=
      (if t.status = 0b0001#4 then
        ((List.finRange 8).map (fun f => (⟨f.val, t.record[f]⟩ : Answer))).reverse
       else [⟨25, t.einfo2⟩, ⟨24, t.einfo1⟩, ⟨23, t.einfo0⟩])
      ++ ⟨22, t.status.setWidth 8⟩ :: s.answers }

/-- 30_encoding.md R62: the pseudo-operation `encode` of a record is `LDREC`, then `ENC`, and it returns
`STATUS` and then `LEN` and the symbols below it when `OK = 1`, the three error arguments when `OK = 0`
(newest answer first). -/
def Obligations.EncodeCallAnswersTheHost : Prop :=
  ∀ (s : State) (r : Vector Byte 8), ∃ t : State,
    exec .enc (putRecord r s) = .next t ∧
    encodeCall r s = .next { t with answers :=
      (if t.status = 0b0001#4 then
        (((List.finRange 12).filter (fun k => k.val < t.len.toNat)).map
          (fun k => (⟨8 + k.val, t.sym[k].setWidth 8⟩ : Answer))).reverse
          ++ [⟨20, t.len.setWidth 8⟩]
       else [⟨25, t.einfo2⟩, ⟨24, t.einfo1⟩, ⟨23, t.einfo0⟩])
      ++ ⟨22, t.status.setWidth 8⟩ :: s.answers }

/-! ### CHK and VAL -/

/-- 40_checksum.md R65, R66: the checksum depends only on the symbols that are not 0, and not on their
order. -/
def Obligations.ChecksumIgnoresZerosAndOrder : Prop :=
  ∀ v w : List Symbol,
    ((v.filter (fun x => x ≠ 0#3)).Perm (w.filter (fun x => x ≠ 0#3))) → checksum v = checksum w

/-- 40_checksum.md R67: flipping bit `b` of one symbol moves the checksum by `2^b` up or down, never to
itself. -/
def Obligations.ChecksumMovesWithEveryFlippedBit : Prop :=
  ∀ (pre post : List Symbol) (x : Symbol) (b : Fin 3),
    (checksum (pre ++ (x ^^^ (1#3 <<< b.val)) :: post) =
        checksum (pre ++ x :: post) + (1#3 <<< b.val) ∨
     checksum (pre ++ (x ^^^ (1#3 <<< b.val)) :: post) =
        checksum (pre ++ x :: post) - (1#3 <<< b.val)) ∧
    checksum (pre ++ (x ^^^ (1#3 <<< b.val)) :: post) ≠ checksum (pre ++ x :: post)

/-- 41_validator.md R75: the Validator passes exactly the valid records. -/
def Obligations.ValidatorPassesExactlyValidRecords : Prop :=
  ∀ r : Vector Byte 8, validate r = none ↔ ValidRecord r

/-- 41_validator.md R68, R69, R74: the first failing check is the one reported, bounds in field order
before gating, and no other kind of error comes from the Validator. -/
def Obligations.ValidatorReportsTheFirstFailure : Prop :=
  ∀ (r : Vector Byte 8) (e : CommandError), validate r = some e ↔
    (∃ f : Fin 8, (∀ g : Fin 8, g < f → r[g] ≤ recordBounds[g]) ∧ recordBounds[f] < r[f] ∧
      e = .fieldOutOfBounds f r[f] recordBounds[f]) ∨
    (WithinBounds r ∧ ∃ (f : Fin 8) (gate : Byte), FirstGateFailure r f gate ∧
      e = .gatingViolation f gate)

/-- 41_validator.md R70, R71: the `willies` and `enemas` checks, when each fails, what it reports, and
that they are the first and the second gating check. -/
def Obligations.WilliesAndEnemasGates : Prop :=
  ∀ r : Vector Byte 8,
    (williesViolation r = some (.gatingViolation 5 13#8) ↔ r[5] ≠ 0#8 ∧ r[0] < 13#8) ∧
    (williesViolation r = none ↔ ¬(r[5] ≠ 0#8 ∧ r[0] < 13#8)) ∧
    (enemasViolation r = some (.gatingViolation 4 10#8) ↔ r[4] ≠ 0#8 ∧ r[0] < 10#8) ∧
    (enemasViolation r = none ↔ ¬(r[4] ≠ 0#8 ∧ r[0] < 10#8)) ∧
    (WithinBounds r → r[5] ≠ 0#8 ∧ r[0] < 13#8 → validate r = some (.gatingViolation 5 13#8)) ∧
    (WithinBounds r → ¬(r[5] ≠ 0#8 ∧ r[0] < 13#8) → r[4] ≠ 0#8 ∧ r[0] < 10#8 →
      validate r = some (.gatingViolation 4 10#8))

/-- 30_encoding.md R54: the machine's loops compute the field assembly and the password assembly. -/
def Obligations.LoopsComputeTheAssemblies : Prop :=
  (∀ (table : Vector TableEntry 32) (sym : Vector Symbol 12) (c : Fin 12),
    AssembledRecord table sym (c.val + 1) (accumulate table sym c)) ∧
  (∀ (table : Vector TableEntry 32) (r : Vector Byte 8),
    AssembledPayload table r (scatter table r))

/-! ### DEC -/

/-- 42_decoder.md R78 to R80, 60_exceptions.md R113: a password with a right checksum whose assembled
record is valid is decoded: `REC` takes the assembled record, the result is success, nothing else
changes. -/
def Obligations.DecodeCommitsTheAssembledRecord : Prop :=
  ∀ (s : State) (w : Vector Byte 8), RightChecksum s.sym s.len.toNat →
    AssembledRecord s.table s.sym s.len.toNat w → ValidRecord w →
    exec .dec s = .next (withResult (putRecord w s) 0b0001#4 0#8 0#8 0#8)

/-- 60_exceptions.md R108: `EmptyPassword` is raised by a `DEC` with `LEN = 0`, records nothing, and is
raised by nothing else. -/
def Obligations.EmptyPasswordIsRaisedExactlyAtLengthZero : Prop :=
  (∀ s : State, s.len = 0#4 → exec .dec s = .next (withResult s 0b0010#4 0#8 0#8 0#8)) ∧
  (∀ (i : Instr) (s t : State), exec i s = .next t → t.status = 0b0010#4 →
    i = .dec ∧ s.len = 0#4)

/-- 60_exceptions.md R109: `ChecksumMismatch` is raised by a `DEC` of length 1 to 12 whose checksum (the
sum of the payload symbols modulo 8, 40_checksum.md R64) differs from its last symbol, records the two,
and is raised by nothing else. -/
def Obligations.ChecksumMismatchIsRaisedExactlyOnAWrongChecksum : Prop :=
  (∀ (s : State) (c : Fin 12), s.len.toNat = c.val + 1 →
    symbolSum (s.sym.toList.take c.val) % 8 ≠ s.sym[c].toNat →
    exec .dec s = .next (withResult s 0b0100#4
      (BitVec.ofNat 8 (symbolSum (s.sym.toList.take c.val) % 8)) (s.sym[c].setWidth 8) 0#8)) ∧
  (∀ (i : Instr) (s t : State), exec i s = .next t → t.status = 0b0100#4 →
    i = .dec ∧ t.einfo0 < 8#8 ∧ t.einfo1 < 8#8 ∧ t.einfo0 ≠ t.einfo1 ∧ t.einfo2 = 0#8 ∧
    ∃ c : Fin 12, s.len.toNat = c.val + 1 ∧
      t.einfo0.toNat = symbolSum (s.sym.toList.take c.val) % 8 ∧ t.einfo1 = s.sym[c].setWidth 8)

/-- 60_exceptions.md R110: `FieldOutOfBounds`, in both directions: the first field above its bound in
the record the Validator was given, what is recorded, and that nothing else raises it. -/
def Obligations.FieldOutOfBoundsInBothDirections : Prop :=
  (∀ (s : State) (w : Vector Byte 8) (f : Fin 8), RightChecksum s.sym s.len.toNat →
    AssembledRecord s.table s.sym s.len.toNat w →
    (∀ g : Fin 8, g < f → w[g] ≤ recordBounds[g]) → recordBounds[f] < w[f] →
    exec .dec s = .next (withResult s 0b0110#4 (BitVec.ofNat 8 f.val) w[f] recordBounds[f])) ∧
  (∀ (s : State) (f : Fin 8), (∀ g : Fin 8, g < f → s.record[g] ≤ recordBounds[g]) →
    recordBounds[f] < s.record[f] →
    exec .enc s =
      .next (withResult s 0b0110#4 (BitVec.ofNat 8 f.val) s.record[f] recordBounds[f])) ∧
  (∀ (i : Instr) (s t : State), exec i s = .next t → t.status = 0b0110#4 →
    ∃ f : Fin 8, t.einfo0 = BitVec.ofNat 8 f.val ∧ t.einfo2 = recordBounds[f] ∧
      t.einfo2 < t.einfo1 ∧
      (i = .enc → t.einfo1 = s.record[f]) ∧
      (i = .dec → RightChecksum s.sym s.len.toNat ∧
        ∀ w, AssembledRecord s.table s.sym s.len.toNat w → t.einfo1 = w[f]))

/-- 60_exceptions.md R111: `GatingViolation`, in both directions: the first failing gate of a record
within its bounds, what is recorded, and that nothing else raises it. -/
def Obligations.GatingViolationInBothDirections : Prop :=
  (∀ (s : State) (w : Vector Byte 8) (f : Fin 8) (gate : Byte), RightChecksum s.sym s.len.toNat →
    AssembledRecord s.table s.sym s.len.toNat w → WithinBounds w → FirstGateFailure w f gate →
    exec .dec s = .next (withResult s 0b1000#4 (BitVec.ofNat 8 f.val) gate 0#8)) ∧
  (∀ (s : State) (f : Fin 8) (gate : Byte), WithinBounds s.record →
    FirstGateFailure s.record f gate →
    exec .enc s = .next (withResult s 0b1000#4 (BitVec.ofNat 8 f.val) gate 0#8)) ∧
  (∀ (i : Instr) (s t : State), exec i s = .next t → t.status = 0b1000#4 →
    ((t.einfo0 = 5#8 ∧ t.einfo1 = 13#8) ∨ (t.einfo0 = 4#8 ∧ t.einfo1 = 10#8) ∨
     (t.einfo0 = 3#8 ∧ t.einfo1 = 3#8) ∨ (t.einfo0 = 2#8 ∧ t.einfo1 = 3#8)) ∧ t.einfo2 = 0#8 ∧
    (i = .enc → WithinBounds s.record ∧
      ∃ f : Fin 8, t.einfo0 = BitVec.ofNat 8 f.val ∧ FirstGateFailure s.record f t.einfo1) ∧
    (i = .dec → RightChecksum s.sym s.len.toNat ∧
      ∀ w, AssembledRecord s.table s.sym s.len.toNat w → WithinBounds w ∧
        ∃ f : Fin 8, t.einfo0 = BitVec.ofNat 8 f.val ∧ FirstGateFailure w f t.einfo1))

/-- 42_decoder.md R77: `DEC` ends in a next state for the lengths 0 to 12 and is refused for the
reserved 13, 14 and 15. -/
def Obligations.DecodeEndsExactlyForLengthsUpToTwelve : Prop :=
  ∀ s : State,
    (s.len.toNat ≤ 12 → ∃ t, exec .dec s = .next t) ∧
    (13 ≤ s.len.toNat → exec .dec s = .refused .reservedLength)

/-- 42_decoder.md R83: a password of length 1 decodes to the all-zero record when its one symbol is 0,
and is a checksum mismatch otherwise. -/
def Obligations.LengthOnePasswords : Prop :=
  ∀ s : State, s.len = 1#4 →
    (s.sym[0] = 0#3 → exec .dec s =
      .next (withResult (putRecord (Vector.replicate 8 0#8) s) 0b0001#4 0#8 0#8 0#8)) ∧
    (s.sym[0] ≠ 0#3 → exec .dec s =
      .next (withResult s 0b0100#4 0#8 (s.sym[0].setWidth 8) 0#8))

/-- 10_state.md R20, 42_decoder.md R80, R81: what `DEC` leaves unchanged, by register number: everything
but the four result registers and, on success only, `REC` (and `LEVEL`, which shows `REC[0]`). -/
def Obligations.DecodeFrame : Prop :=
  ∀ s t : State, exec .dec s = .next t →
    (∀ n, 8 ≤ n → ¬(22 ≤ n ∧ n ≤ 26) → registerValue n t = registerValue n s) ∧
    (t.status ≠ 0b0001#4 → ∀ n, ¬(22 ≤ n ∧ n ≤ 25) → registerValue n t = registerValue n s) ∧
    t.pending = s.pending ∧ t.answers = s.answers

/-- 42_decoder.md R81, 44_laws.md R105: the outcome of `DEC` depends on `TABLE`, `LEN` and the symbols
below `LEN` only. -/
def Obligations.DecodeDependsOnItsOperandsOnly : Prop :=
  ∀ s u : State, s.table = u.table → SamePassword s u →
    (∀ t, exec .dec s = .next t → ∃ v, exec .dec u = .next v ∧ SameResult t v ∧
      (t.status = 0b0001#4 → t.record = v.record)) ∧
    (∀ why, exec .dec s = .refused why → exec .dec u = .refused why)

/-- 42_decoder.md R84: under WF2 the only bounds errors of `DEC` are those of `lives` and `seed`. -/
def Obligations.DecodeBoundsErrorsUnderWF2 : Prop :=
  ∀ s t : State, WF2 s.table → exec .dec s = .next t → t.status = 0b0110#4 →
    (t.einfo0 = 1#8 ∧ 100#8 ≤ t.einfo1 ∧ t.einfo1 ≤ 127#8 ∧ t.einfo2 = 99#8) ∨
    (t.einfo0 = 7#8 ∧ 49#8 ≤ t.einfo1 ∧ t.einfo1 ≤ 63#8 ∧ t.einfo2 = 48#8)

/-! ### ENC -/

/-- 43_encoder.md R86 to R90, 60_exceptions.md R113: a valid record is encoded: the assembled payload,
the checksum in the slot after its last symbol that is not 0, the length, success, and nothing else. -/
def Obligations.EncodeCommitsTheAssembledPassword : Prop :=
  ∀ (s : State) (p : Vector Symbol 12) (slot : Fin 12), ValidRecord s.record →
    AssembledPayload s.table s.record p → IsChecksumSlot p slot →
    exec .enc s = .next (withResult
      (putPassword (p.set slot (BitVec.ofNat 3 (symbolSum p.toList)))
        (BitVec.ofNat 4 (slot.val + 1)) s) 0b0001#4 0#8 0#8 0#8)

/-- 10_state.md R20, 43_encoder.md R86, R90: what `ENC` leaves unchanged, by register number:
everything but the four result registers and, on success only, `SYM` and `LEN`. -/
def Obligations.EncodeFrame : Prop :=
  ∀ s t : State, exec .enc s = .next t →
    (∀ n, ¬(8 ≤ n ∧ n ≤ 20) → ¬(22 ≤ n ∧ n ≤ 25) → registerValue n t = registerValue n s) ∧
    (t.status ≠ 0b0001#4 → ∀ n, ¬(22 ≤ n ∧ n ≤ 25) → registerValue n t = registerValue n s) ∧
    t.pending = s.pending ∧ t.answers = s.answers

/-- 44_laws.md R105, 10_state.md R20: the outcome of `ENC` depends on `TABLE` and `REC` only, and every
`ENC` ends in a next state. -/
def Obligations.EncodeDependsOnTheRecordOnly : Prop :=
  ∀ s u : State, s.table = u.table → s.record = u.record →
    ∃ t v, exec .enc s = .next t ∧ exec .enc u = .next v ∧ SameResult t v ∧
      (t.status = 0b0001#4 → t.sym = v.sym ∧ t.len = v.len)

/-- 43_encoder.md R91, 44_laws.md R98: what a successful `ENC` leaves is a canonical password, with a
length 1 to 12, `SYM[10] <= 3` at length 12, and zeros beyond the password. -/
def Obligations.EncodeLeavesACanonicalPassword : Prop :=
  ∀ s : State, ValidRecord s.record → ∃ t, exec .enc s = .next t ∧ Succeeded t ∧
    1 ≤ t.len.toNat ∧ t.len.toNat ≤ 12 ∧ CanonicalPassword t ∧
    (t.len = 12#4 → t.sym[10] ≤ 3#3) ∧
    ∀ k : Fin 12, t.len.toNat ≤ k.val → t.sym[k] = 0#3

/-- 43_encoder.md R92: the all-zero record is encoded as the one symbol 0, for every `TABLE`. -/
def Obligations.ZeroRecordEncodesToOneZeroSymbol : Prop :=
  ∀ s : State, s.record = Vector.replicate 8 0#8 →
    exec .enc s = .next
      (withResult (putPassword (Vector.replicate 12 0#3) 1#4 s) 0b0001#4 0#8 0#8 0#8)

/-! ### The pair of commands -/

/-- 44_laws.md R93: the round trip. Under WF2 every valid record comes back; the law for all valid
records needs WF2; and under WF1 alone it holds exactly for the valid records whose set bits all appear
in `TABLE`. -/
def Obligations.RoundTripOfValidRecords : Prop :=
  (∀ (s : State) (r : Vector Byte 8), WF2 s.table → ValidRecord r → RoundTrips s r) ∧
  (∀ s : State, (∀ r, ValidRecord r → RoundTrips s r) → WF2 s.table) ∧
  (∀ (s : State) (r : Vector Byte 8), ValidRecord r →
    (RoundTrips s r ↔
      ∀ f b : Fin 8, r[f].getLsbD b.val = true → TableNames s.table f b))

/-- 44_laws.md R95: re-encoding a decoded password gives a password that decodes to the same record. -/
def Obligations.ReencodedPasswordDecodesAlike : Prop :=
  ∀ s t : State, exec .dec s = .next t → t.status = 0b0001#4 →
    ∃ u v, exec .enc t = .next u ∧ Succeeded u ∧ exec .dec u = .next v ∧ Succeeded v ∧
      v.record = t.record

/-- 44_laws.md R96: one flipped bit of a password whose checksum is right, in a payload symbol or in the
checksum symbol, is a checksum mismatch; a payload flip of bit `b` moves the sum by `2^b`. -/
def Obligations.OneFlippedBitFailsTheChecksum : Prop :=
  ∀ (s : State) (c k : Fin 12) (b : Fin 3), s.len.toNat = c.val + 1 →
    RightChecksum s.sym s.len.toNat →
    (k < c → ∃ computed : Symbol,
      (computed = s.sym[c] + (1#3 <<< b.val) ∨ computed = s.sym[c] - (1#3 <<< b.val)) ∧
      exec .dec (writeSym k (s.sym[k] ^^^ (1#3 <<< b.val)) s) =
        .next (withResult (writeSym k (s.sym[k] ^^^ (1#3 <<< b.val)) s) 0b0100#4
          (computed.setWidth 8) (s.sym[c].setWidth 8) 0#8)) ∧
    (k = c →
      exec .dec (writeSym k (s.sym[k] ^^^ (1#3 <<< b.val)) s) =
        .next (withResult (writeSym k (s.sym[k] ^^^ (1#3 <<< b.val)) s) 0b0100#4
          (s.sym[c].setWidth 8) ((s.sym[c] ^^^ (1#3 <<< b.val)).setWidth 8) 0#8))

/-- 44_laws.md R97: at length 12, moving `SYM[10]` by its top bit and `SYM[11]` by 4 leaves the outcome
alone, but for a mismatch's two recorded values, each moved by 4 modulo 8. -/
def Obligations.IgnoredBitWithAdjustedChecksum : Prop :=
  ∀ s u : State, s.len = 12#4 →
    u = writeSym 11 (s.sym[11] + 4#3) (writeSym 10 (s.sym[10] ^^^ 4#3) s) →
    ∃ t v : State, exec .dec s = .next t ∧ exec .dec u = .next v ∧
      ((∃ computed found : Symbol,
          t = withResult s 0b0100#4 (computed.setWidth 8) (found.setWidth 8) 0#8 ∧
          v = withResult u 0b0100#4 ((computed + 4#3).setWidth 8) ((found + 4#3).setWidth 8) 0#8) ∨
       (t.status ≠ 0b0100#4 ∧ v = putPassword u.sym u.len t))

/-- 44_laws.md R98: under WF2, `ENC` after a successful `DEC` gives the password back, symbol for
symbol, exactly when it was canonical. -/
def Obligations.ReencodingFixesExactlyCanonicalPasswords : Prop :=
  ∀ s t : State, WF2 s.table → exec .dec s = .next t → t.status = 0b0001#4 →
    ∃ u, exec .enc t = .next u ∧ Succeeded u ∧ (SamePassword s u ↔ CanonicalPassword s)

/-- 44_laws.md R99: a zero symbol put before a right checksum symbol leaves the outcome of `DEC`. -/
def Obligations.TrailingZeroSymbolKeepsTheOutcome : Prop :=
  ∀ (s u : State) (c d : Fin 12), s.table = u.table → s.len.toNat = c.val + 1 →
    d.val = c.val + 1 → u.len.toNat = d.val + 1 → RightChecksum s.sym s.len.toNat →
    (∀ k : Fin 12, k < c → u.sym[k] = s.sym[k]) → u.sym[c] = 0#3 → u.sym[d] = s.sym[c] →
    ∃ t v : State, exec .dec s = .next t ∧ exec .dec u = .next v ∧ SameResult t v ∧
      t.status ≠ 0b0100#4 ∧ (t.status = 0b0001#4 → t.record = v.record)

/-- 44_laws.md R100: under WF2, the passwords that decode to a valid record are exactly its canonical
password with zero symbols before the checksum, and the length-12 one of them with `SYM[10]` and the
checksum moved by 4. -/
def Obligations.PasswordsOfOneRecord : Prop :=
  ∀ s t u : State, WF2 s.table → ValidRecord s.record → exec .enc s = .next t →
    u.table = s.table →
    ((∃ v, exec .dec u = .next v ∧ v.status = 0b0001#4 ∧ v.record = s.record) ↔
      (∃ c d : Fin 12, t.len.toNat = c.val + 1 ∧ u.len.toNat = d.val + 1 ∧ c ≤ d ∧
        (∀ k : Fin 12, k < d → u.sym[k] = effectiveSymbol t k) ∧ u.sym[d] = t.sym[c]) ∨
      (∃ c : Fin 12, t.len.toNat = c.val + 1 ∧ u.len = 12#4 ∧
        (∀ k : Fin 12, k < 10 → u.sym[k] = effectiveSymbol t k) ∧
        u.sym[10] = effectiveSymbol t 10 + 4#3 ∧ u.sym[11] = t.sym[c] + 4#3))

/-- 44_laws.md R101: `level = 32` is out of bounds, `level = 2, pharts = 1` is a gating violation, and
`level = 5, pharts = 1` is encoded, for every `TABLE`. -/
def Obligations.BoundsAndGateScenarios : Prop :=
  ∀ s : State,
    (∃ t, runAccesses (ldrec #v[32#8, 0#8, 0#8, 0#8, 0#8, 0#8, 0#8, 0#8] ++ [.cmd .enc]) s = .next t ∧
      t.status = 0b0110#4 ∧ t.einfo0 = 0#8 ∧ t.einfo1 = 32#8 ∧ t.einfo2 = 31#8) ∧
    (∃ t, runAccesses (ldrec #v[2#8, 0#8, 0#8, 1#8, 0#8, 0#8, 0#8, 0#8] ++ [.cmd .enc]) s = .next t ∧
      t.status = 0b1000#4 ∧ t.einfo0 = 3#8 ∧ t.einfo1 = 3#8 ∧ t.einfo2 = 0#8) ∧
    (∃ t, runAccesses (ldrec #v[5#8, 0#8, 0#8, 1#8, 0#8, 0#8, 0#8, 0#8] ++ [.cmd .enc]) s = .next t ∧
      Succeeded t)

/-- 44_laws.md R103: `LDPW [Cross]; DEC` gives the all-zero record, and `ENC` of the all-zero record
gives `[Cross]` back, for every `TABLE`. -/
def Obligations.CrossPasswordScenario : Prop :=
  ∀ s : State,
    (∃ t, runAccesses (ldpw [cross] (by decide) ++ [.cmd .dec]) s = .next t ∧
      t.status = 0b0001#4 ∧ t.record = Vector.replicate 8 0#8 ∧
      ∃ u, exec .enc t = .next u ∧ u.status = 0b0001#4 ∧ u.len = 1#4 ∧ u.sym[0] = cross) ∧
    (∃ u, runAccesses (ldrec (Vector.replicate 8 0#8) ++ [.cmd .enc]) s = .next u ∧
      u.status = 0b0001#4 ∧ u.len = 1#4 ∧ u.sym[0] = cross)

/-- 44_laws.md R104: a decoded record is valid, an encoded record was valid, and a record that `DEC`
produced is accepted by `ENC`. -/
def Obligations.OutputsAreValid : Prop :=
  (∀ s t : State, exec .dec s = .next t → t.status = 0b0001#4 →
    ValidRecord t.record ∧ ∃ u, exec .enc t = .next u ∧ Succeeded u) ∧
  (∀ s t : State, exec .enc s = .next t → t.status = 0b0001#4 → ValidRecord s.record)

/-- 44_laws.md R106, 60_exceptions.md R112, R116: a command that does not succeed changes the four
result registers and nothing else. -/
def Obligations.FailureChangesOnlyTheResult : Prop :=
  ∀ (i : Instr) (s t : State), exec i s = .next t → t.status ≠ 0b0001#4 →
    t = withResult s t.status t.einfo0 t.einfo1 t.einfo2

/-- 60_exceptions.md R117: a result stays readable until the next command ends or until reset: no other
access changes `STATUS` or `EINFO0..2`. -/
def Obligations.ResultStaysUntilTheNextCommand : Prop :=
  ∀ (a : Access) (s t : State), a ≠ .reset → (∀ i, a ≠ .cmd i) → performAccess a s = .next t →
    SameResult s t

/-- 10_state.md R10, R27: what can change each element: `REC` a host write, a successful `DEC` or reset;
`SYM` and `LEN` a host write, a successful `ENC` or reset; the result registers a command or reset;
`TABLE` nothing. -/
def Obligations.OnlyTheListedEventsChangeEachElement : Prop :=
  ∀ (a : Access) (s t : State), performAccess a s = .next t →
    (t.record ≠ s.record →
      (∃ f v, a = .wrec f v) ∨ (a = .cmd .dec ∧ t.status = 0b0001#4) ∨ a = .reset) ∧
    (t.sym ≠ s.sym →
      (∃ k v, a = .wsym k v) ∨ (a = .cmd .enc ∧ t.status = 0b0001#4) ∨ a = .reset) ∧
    (t.len ≠ s.len →
      (∃ n, a = .wlen n) ∨ (a = .cmd .enc ∧ t.status = 0b0001#4) ∨ a = .reset) ∧
    (¬ SameResult s t → (∃ i, a = .cmd i) ∨ a = .reset) ∧
    t.table = s.table

/-- 70_reset_and_hazards.md R128: the first command after reset, for every `TABLE`. -/
def Obligations.FirstCommandAfterReset : Prop :=
  ∀ s r : State, performPort .reset s = .next r →
    (∃ t, exec .dec r = .next t ∧ t.status = 0b0010#4) ∧
    (∃ t, exec .enc r = .next t ∧ t.status = 0b0001#4 ∧ t.len = 1#4 ∧
      t.sym = Vector.replicate 12 0#3)

/-! ### Invariant -/

/-- 10_state.md R16, R17, 30_encoding.md R55: from every state whose result registers show a result the
block produces, every step leads to such a state, whatever the host does. -/
def Obligations.EveryStepKeepsALegalResult : Prop :=
  ∀ s t : State, LegalResult s → step s = .next t → LegalResult t

/-- 10_state.md R16, R25, 70_reset_and_hazards.md R126: at `State.reset` and after the reset event
`STATUS` and `EINFO0..2` are 0, which shows that no command has run, and that is a legal result. -/
def Obligations.ResetHasALegalResult : Prop :=
  (NoCommandHasRun State.reset ∧ LegalResult State.reset) ∧
  ∀ s t : State, performPort .reset s = .next t → NoCommandHasRun t ∧ LegalResult t
end

