-- ==== Sys2Proof/Laws/State.lean ====
section
/-! SUPPORT. What each named update of the state leaves in each field: one lemma per field per update,
so that no proof unfolds a record update. -/

namespace Sys2Proof.Machine

variable (s : State)

/-! ### `writeRec` -/

@[simp] theorem writeRec_record (f : Fin 8) (v : Byte) :
    (writeRec f v s).record = s.record.set f v := rfl
@[simp] theorem writeRec_sym (f : Fin 8) (v : Byte) : (writeRec f v s).sym = s.sym := rfl
@[simp] theorem writeRec_len (f : Fin 8) (v : Byte) : (writeRec f v s).len = s.len := rfl
@[simp] theorem writeRec_status (f : Fin 8) (v : Byte) : (writeRec f v s).status = s.status := rfl
@[simp] theorem writeRec_einfo0 (f : Fin 8) (v : Byte) : (writeRec f v s).einfo0 = s.einfo0 := rfl
@[simp] theorem writeRec_einfo1 (f : Fin 8) (v : Byte) : (writeRec f v s).einfo1 = s.einfo1 := rfl
@[simp] theorem writeRec_einfo2 (f : Fin 8) (v : Byte) : (writeRec f v s).einfo2 = s.einfo2 := rfl
@[simp] theorem writeRec_table (f : Fin 8) (v : Byte) : (writeRec f v s).table = s.table := rfl
@[simp] theorem writeRec_pending (f : Fin 8) (v : Byte) :
    (writeRec f v s).pending = s.pending := rfl
@[simp] theorem writeRec_answers (f : Fin 8) (v : Byte) :
    (writeRec f v s).answers = s.answers := rfl

/-! ### `writeSym` -/

@[simp] theorem writeSym_record (k : Fin 12) (v : Symbol) :
    (writeSym k v s).record = s.record := rfl
@[simp] theorem writeSym_sym (k : Fin 12) (v : Symbol) : (writeSym k v s).sym = s.sym.set k v := rfl
@[simp] theorem writeSym_len (k : Fin 12) (v : Symbol) : (writeSym k v s).len = s.len := rfl
@[simp] theorem writeSym_status (k : Fin 12) (v : Symbol) :
    (writeSym k v s).status = s.status := rfl
@[simp] theorem writeSym_einfo0 (k : Fin 12) (v : Symbol) :
    (writeSym k v s).einfo0 = s.einfo0 := rfl
@[simp] theorem writeSym_einfo1 (k : Fin 12) (v : Symbol) :
    (writeSym k v s).einfo1 = s.einfo1 := rfl
@[simp] theorem writeSym_einfo2 (k : Fin 12) (v : Symbol) :
    (writeSym k v s).einfo2 = s.einfo2 := rfl
@[simp] theorem writeSym_table (k : Fin 12) (v : Symbol) : (writeSym k v s).table = s.table := rfl
@[simp] theorem writeSym_pending (k : Fin 12) (v : Symbol) :
    (writeSym k v s).pending = s.pending := rfl
@[simp] theorem writeSym_answers (k : Fin 12) (v : Symbol) :
    (writeSym k v s).answers = s.answers := rfl

/-! ### `writeLen` -/

@[simp] theorem writeLen_record (n : LenWord) : (writeLen n s).record = s.record := rfl
@[simp] theorem writeLen_sym (n : LenWord) : (writeLen n s).sym = s.sym := rfl
@[simp] theorem writeLen_len (n : LenWord) : (writeLen n s).len = n := rfl
@[simp] theorem writeLen_status (n : LenWord) : (writeLen n s).status = s.status := rfl
@[simp] theorem writeLen_einfo0 (n : LenWord) : (writeLen n s).einfo0 = s.einfo0 := rfl
@[simp] theorem writeLen_einfo1 (n : LenWord) : (writeLen n s).einfo1 = s.einfo1 := rfl
@[simp] theorem writeLen_einfo2 (n : LenWord) : (writeLen n s).einfo2 = s.einfo2 := rfl
@[simp] theorem writeLen_table (n : LenWord) : (writeLen n s).table = s.table := rfl
@[simp] theorem writeLen_pending (n : LenWord) : (writeLen n s).pending = s.pending := rfl
@[simp] theorem writeLen_answers (n : LenWord) : (writeLen n s).answers = s.answers := rfl

/-! ### `putRecord` -/

@[simp] theorem putRecord_record (r : Vector Byte 8) : (putRecord r s).record = r := rfl
@[simp] theorem putRecord_sym (r : Vector Byte 8) : (putRecord r s).sym = s.sym := rfl
@[simp] theorem putRecord_len (r : Vector Byte 8) : (putRecord r s).len = s.len := rfl
@[simp] theorem putRecord_status (r : Vector Byte 8) : (putRecord r s).status = s.status := rfl
@[simp] theorem putRecord_einfo0 (r : Vector Byte 8) : (putRecord r s).einfo0 = s.einfo0 := rfl
@[simp] theorem putRecord_einfo1 (r : Vector Byte 8) : (putRecord r s).einfo1 = s.einfo1 := rfl
@[simp] theorem putRecord_einfo2 (r : Vector Byte 8) : (putRecord r s).einfo2 = s.einfo2 := rfl
@[simp] theorem putRecord_table (r : Vector Byte 8) : (putRecord r s).table = s.table := rfl
@[simp] theorem putRecord_pending (r : Vector Byte 8) : (putRecord r s).pending = s.pending := rfl
@[simp] theorem putRecord_answers (r : Vector Byte 8) : (putRecord r s).answers = s.answers := rfl

/-! ### `putPassword` -/

@[simp] theorem putPassword_record (p : Vector Symbol 12) (n : LenWord) :
    (putPassword p n s).record = s.record := rfl
@[simp] theorem putPassword_sym (p : Vector Symbol 12) (n : LenWord) :
    (putPassword p n s).sym = p := rfl
@[simp] theorem putPassword_len (p : Vector Symbol 12) (n : LenWord) :
    (putPassword p n s).len = n := rfl
@[simp] theorem putPassword_status (p : Vector Symbol 12) (n : LenWord) :
    (putPassword p n s).status = s.status := rfl
@[simp] theorem putPassword_einfo0 (p : Vector Symbol 12) (n : LenWord) :
    (putPassword p n s).einfo0 = s.einfo0 := rfl
@[simp] theorem putPassword_einfo1 (p : Vector Symbol 12) (n : LenWord) :
    (putPassword p n s).einfo1 = s.einfo1 := rfl
@[simp] theorem putPassword_einfo2 (p : Vector Symbol 12) (n : LenWord) :
    (putPassword p n s).einfo2 = s.einfo2 := rfl
@[simp] theorem putPassword_table (p : Vector Symbol 12) (n : LenWord) :
    (putPassword p n s).table = s.table := rfl
@[simp] theorem putPassword_pending (p : Vector Symbol 12) (n : LenWord) :
    (putPassword p n s).pending = s.pending := rfl
@[simp] theorem putPassword_answers (p : Vector Symbol 12) (n : LenWord) :
    (putPassword p n s).answers = s.answers := rfl

/-! ### `putPending` -/

@[simp] theorem putPending_record (ps : List PortAccess) :
    (putPending ps s).record = s.record := rfl
@[simp] theorem putPending_sym (ps : List PortAccess) : (putPending ps s).sym = s.sym := rfl
@[simp] theorem putPending_len (ps : List PortAccess) : (putPending ps s).len = s.len := rfl
@[simp] theorem putPending_status (ps : List PortAccess) :
    (putPending ps s).status = s.status := rfl
@[simp] theorem putPending_einfo0 (ps : List PortAccess) :
    (putPending ps s).einfo0 = s.einfo0 := rfl
@[simp] theorem putPending_einfo1 (ps : List PortAccess) :
    (putPending ps s).einfo1 = s.einfo1 := rfl
@[simp] theorem putPending_einfo2 (ps : List PortAccess) :
    (putPending ps s).einfo2 = s.einfo2 := rfl
@[simp] theorem putPending_table (ps : List PortAccess) : (putPending ps s).table = s.table := rfl
@[simp] theorem putPending_pending (ps : List PortAccess) : (putPending ps s).pending = ps := rfl
@[simp] theorem putPending_answers (ps : List PortAccess) :
    (putPending ps s).answers = s.answers := rfl

/-- Putting back what is there changes nothing. -/
@[simp] theorem putPending_self : putPending s.pending s = s := rfl

/-- Only the last list of pending accesses counts. -/
@[simp] theorem putPending_putPending (ps qs : List PortAccess) :
    putPending ps (putPending qs s) = putPending ps s := rfl

/-! ### `answer` -/

@[simp] theorem answer_record (n : Nat) (v : Byte) : (answer n v s).record = s.record := rfl
@[simp] theorem answer_sym (n : Nat) (v : Byte) : (answer n v s).sym = s.sym := rfl
@[simp] theorem answer_len (n : Nat) (v : Byte) : (answer n v s).len = s.len := rfl
@[simp] theorem answer_status (n : Nat) (v : Byte) : (answer n v s).status = s.status := rfl
@[simp] theorem answer_einfo0 (n : Nat) (v : Byte) : (answer n v s).einfo0 = s.einfo0 := rfl
@[simp] theorem answer_einfo1 (n : Nat) (v : Byte) : (answer n v s).einfo1 = s.einfo1 := rfl
@[simp] theorem answer_einfo2 (n : Nat) (v : Byte) : (answer n v s).einfo2 = s.einfo2 := rfl
@[simp] theorem answer_table (n : Nat) (v : Byte) : (answer n v s).table = s.table := rfl
@[simp] theorem answer_pending (n : Nat) (v : Byte) : (answer n v s).pending = s.pending := rfl
@[simp] theorem answer_answers (n : Nat) (v : Byte) :
    (answer n v s).answers = ⟨n, v⟩ :: s.answers := rfl

/-! ### `raiseError` -/

@[simp] theorem raiseError_record (e : CommandError) : (raiseError e s).record = s.record := rfl
@[simp] theorem raiseError_sym (e : CommandError) : (raiseError e s).sym = s.sym := rfl
@[simp] theorem raiseError_len (e : CommandError) : (raiseError e s).len = s.len := rfl
@[simp] theorem raiseError_status (e : CommandError) :
    (raiseError e s).status = statusWord false (errorCode e) := rfl
@[simp] theorem raiseError_einfo0 (e : CommandError) : (raiseError e s).einfo0 = errorInfo0 e := rfl
@[simp] theorem raiseError_einfo1 (e : CommandError) : (raiseError e s).einfo1 = errorInfo1 e := rfl
@[simp] theorem raiseError_einfo2 (e : CommandError) : (raiseError e s).einfo2 = errorInfo2 e := rfl
@[simp] theorem raiseError_table (e : CommandError) : (raiseError e s).table = s.table := rfl
@[simp] theorem raiseError_pending (e : CommandError) : (raiseError e s).pending = s.pending := rfl
@[simp] theorem raiseError_answers (e : CommandError) : (raiseError e s).answers = s.answers := rfl

/-! ### `succeed` -/

@[simp] theorem succeed_record : (succeed s).record = s.record := rfl
@[simp] theorem succeed_sym : (succeed s).sym = s.sym := rfl
@[simp] theorem succeed_len : (succeed s).len = s.len := rfl
@[simp] theorem succeed_status : (succeed s).status = 0b0001#4 := rfl
@[simp] theorem succeed_einfo0 : (succeed s).einfo0 = 0#8 := rfl
@[simp] theorem succeed_einfo1 : (succeed s).einfo1 = 0#8 := rfl
@[simp] theorem succeed_einfo2 : (succeed s).einfo2 = 0#8 := rfl
@[simp] theorem succeed_table : (succeed s).table = s.table := rfl
@[simp] theorem succeed_pending : (succeed s).pending = s.pending := rfl
@[simp] theorem succeed_answers : (succeed s).answers = s.answers := rfl

/-! ### `resetBlock` -/

@[simp] theorem resetBlock_record : (resetBlock s).record = Vector.replicate 8 0#8 := rfl
@[simp] theorem resetBlock_sym : (resetBlock s).sym = Vector.replicate 12 0#3 := rfl
@[simp] theorem resetBlock_len : (resetBlock s).len = 0#4 := rfl
@[simp] theorem resetBlock_status : (resetBlock s).status = 0#4 := rfl
@[simp] theorem resetBlock_einfo0 : (resetBlock s).einfo0 = 0#8 := rfl
@[simp] theorem resetBlock_einfo1 : (resetBlock s).einfo1 = 0#8 := rfl
@[simp] theorem resetBlock_einfo2 : (resetBlock s).einfo2 = 0#8 := rfl
@[simp] theorem resetBlock_table : (resetBlock s).table = s.table := rfl
@[simp] theorem resetBlock_pending : (resetBlock s).pending = s.pending := rfl
@[simp] theorem resetBlock_answers : (resetBlock s).answers = s.answers := rfl

/-! ### `presentAccess` -/

@[simp] theorem presentAccess_record (p : PortAccess) : (presentAccess p s).record = s.record := rfl
@[simp] theorem presentAccess_sym (p : PortAccess) : (presentAccess p s).sym = s.sym := rfl
@[simp] theorem presentAccess_len (p : PortAccess) : (presentAccess p s).len = s.len := rfl
@[simp] theorem presentAccess_status (p : PortAccess) : (presentAccess p s).status = s.status := rfl
@[simp] theorem presentAccess_einfo0 (p : PortAccess) : (presentAccess p s).einfo0 = s.einfo0 := rfl
@[simp] theorem presentAccess_einfo1 (p : PortAccess) : (presentAccess p s).einfo1 = s.einfo1 := rfl
@[simp] theorem presentAccess_einfo2 (p : PortAccess) : (presentAccess p s).einfo2 = s.einfo2 := rfl
@[simp] theorem presentAccess_table (p : PortAccess) : (presentAccess p s).table = s.table := rfl
@[simp] theorem presentAccess_pending (p : PortAccess) :
    (presentAccess p s).pending = p :: s.pending := rfl
@[simp] theorem presentAccess_answers (p : PortAccess) :
    (presentAccess p s).answers = s.answers := rfl

/-! ### `withResult` -/

@[simp] theorem withResult_record (w : StatusWord) (e0 e1 e2 : Byte) :
    (withResult s w e0 e1 e2).record = s.record := rfl
@[simp] theorem withResult_sym (w : StatusWord) (e0 e1 e2 : Byte) :
    (withResult s w e0 e1 e2).sym = s.sym := rfl
@[simp] theorem withResult_len (w : StatusWord) (e0 e1 e2 : Byte) :
    (withResult s w e0 e1 e2).len = s.len := rfl
@[simp] theorem withResult_status (w : StatusWord) (e0 e1 e2 : Byte) :
    (withResult s w e0 e1 e2).status = w := rfl
@[simp] theorem withResult_einfo0 (w : StatusWord) (e0 e1 e2 : Byte) :
    (withResult s w e0 e1 e2).einfo0 = e0 := rfl
@[simp] theorem withResult_einfo1 (w : StatusWord) (e0 e1 e2 : Byte) :
    (withResult s w e0 e1 e2).einfo1 = e1 := rfl
@[simp] theorem withResult_einfo2 (w : StatusWord) (e0 e1 e2 : Byte) :
    (withResult s w e0 e1 e2).einfo2 = e2 := rfl
@[simp] theorem withResult_table (w : StatusWord) (e0 e1 e2 : Byte) :
    (withResult s w e0 e1 e2).table = s.table := rfl
@[simp] theorem withResult_pending (w : StatusWord) (e0 e1 e2 : Byte) :
    (withResult s w e0 e1 e2).pending = s.pending := rfl
@[simp] theorem withResult_answers (w : StatusWord) (e0 e1 e2 : Byte) :
    (withResult s w e0 e1 e2).answers = s.answers := rfl

/-- Placing a command word is presenting the `CMD` write to the port. -/
theorem withFetchWord_eq (nbits w : Nat) :
    s.withFetchWord nbits w = presentAccess (.write cmdNumber w) s := rfl

end Sys2Proof.Machine
end

