-- ==== Sys2Proof/Laws/Checksum.lean ====
section
/-! SUPPORT. What `CHK` computes: the sum of the symbols modulo 8 (40_checksum.md R65). -/

namespace Sys2Proof.Machine

/-- The 8-bit accumulator is the sum modulo 256. -/
theorem checksum_acc_toNat (v : List Symbol) (acc : Byte) :
    (v.foldl checksumStep acc).toNat = (acc.toNat + symbolSum v) % 256 := by
  induction v generalizing acc with
  | nil => simp [symbolSum, Nat.mod_eq_of_lt acc.isLt]
  | cons x v ih =>
    have hx : (checksumStep acc x).toNat = (acc.toNat + x.toNat) % 256 := by
      simp [checksumStep]
    rw [List.foldl_cons, ih, hx]
    simp only [symbolSum, List.map_cons, List.sum_cons]
    omega

/-- `CHK` is the arithmetic sum of the symbols modulo 8. -/
theorem checksum_toNat (v : List Symbol) : (checksum v).toNat = symbolSum v % 8 := by
  have h := checksum_acc_toNat v 0#8
  simp only [checksum, BitVec.extractLsb'_toNat, h]
  simp

theorem symbolSum_nil : symbolSum [] = 0 := rfl

theorem symbolSum_cons (x : Symbol) (v : List Symbol) :
    symbolSum (x :: v) = x.toNat + symbolSum v := by simp [symbolSum]

theorem symbolSum_append (v w : List Symbol) : symbolSum (v ++ w) = symbolSum v + symbolSum w := by
  simp [symbolSum]

end Sys2Proof.Machine
end

