-- ==== Sys2Proof/Laws/Operands.lean ====
section
/-! SUPPORT. The operand forms and the two bit-setting operations, by the bits they read and write. -/

namespace Sys2Proof.Machine

/-- The checksum slot exists exactly for the lengths 1 to 12, and is the slot below the length. -/
theorem checksumSlot_eq_some_iff (n : LenWord) (c : Fin 12) :
    checksumSlot n = some c ↔ n.toNat = c.val + 1 := by
  unfold checksumSlot
  split
  · simp only [Option.some.injEq, Fin.ext_iff]; omega
  · simp only [reduceCtorEq, false_iff]; omega

/-- The checksum slot is missing exactly for length 0 and the reserved lengths. -/
theorem checksumSlot_eq_none_iff (n : LenWord) :
    checksumSlot n = none ↔ n.toNat = 0 ∨ 13 ≤ n.toNat := by
  unfold checksumSlot
  split
  · simp only [reduceCtorEq, false_iff]; omega
  · rename_i h
    simp only [true_iff]
    omega

/-- A table entry is the pair of its halves. -/
theorem entry_ext {e d : TableEntry} (hf : entryField e = entryField d)
    (hs : entryShift e = entryShift d) : e = d := by
  revert hf hs; revert e d; decide

/-- A payload bit is a bit of a payload symbol below the checksum slot. -/
theorem payloadBit_eq_true_iff (sym : Vector Symbol 12) (c : Fin 12) (i : Fin 32) :
    payloadBit sym c i = true ↔ PayloadBitSet sym (c.val + 1) i := by
  unfold payloadBit payloadSymbol PayloadBitSet bitPlace
  split
  · rename_i h
    have h' : i.val / 3 < c.val := h
    simp only [Nat.add_lt_add_iff_right, h', true_and]
    rfl
  · rename_i h
    have h' : ¬ i.val / 3 < c.val := h
    simp [h']

/-- Setting a record bit sets that bit and leaves every other. -/
theorem setRecordBit_getLsbD (w : Vector Byte 8) (e : TableEntry) (f b : Fin 8) :
    (setRecordBit w e)[f].getLsbD b.val = true ↔
      w[f].getLsbD b.val = true ∨ (entryField e = f ∧ entryShift e = b) := by
  have hb : b.val < 8 := b.isLt
  by_cases hf : entryField e = f
  · subst hf
    simp only [setRecordBit, Fin.getElem_fin, Vector.getElem_set_self, BitVec.getLsbD_or,
      Bool.or_eq_true, true_and]
    have : (1#8 <<< (entryShift e).val).getLsbD b.val = true ↔ entryShift e = b := by
      generalize entryShift e = k; revert k b; decide
    rw [this]
  · have hne : (entryField e).val ≠ f.val := fun h => hf (Fin.ext h)
    simp [setRecordBit, Vector.getElem_set_ne, hne, hf]

/-- Setting a payload bit sets that bit and leaves every other. -/
theorem setPayloadBit_getLsbD (p : Vector Symbol 12) (i : Fin 32) (k : Fin 12) (b : Fin 3) :
    (setPayloadBit p i)[k].getLsbD b.val = true ↔
      p[k].getLsbD b.val = true ∨ (i.val / 3 = k.val ∧ i.val % 3 = b.val) := by
  by_cases hk : i.val / 3 = k.val
  · have : k = bitSlot i := Fin.ext hk.symm
    subst this
    simp only [setPayloadBit, Fin.getElem_fin, Vector.getElem_set_self, BitVec.getLsbD_or,
      Bool.or_eq_true, hk, true_and]
    have : (1#3 <<< bitPlace i).getLsbD b.val = true ↔ i.val % 3 = b.val := by
      unfold bitPlace
      have hi : i.val % 3 < 3 := Nat.mod_lt _ (by decide)
      generalize i.val % 3 = m at hi
      clear hk
      interval_cases m <;> revert b <;> decide
    rw [this]
  · have hne : (bitSlot i).val ≠ k.val := hk
    simp [setPayloadBit, Vector.getElem_set_ne, hne, hk]

/-- A record is determined by its 64 bits. -/
theorem record_ext {r w : Vector Byte 8}
    (h : ∀ f b : Fin 8, r[f].getLsbD b.val = true ↔ w[f].getLsbD b.val = true) : r = w := by
  apply Vector.ext
  intro f hf
  apply BitVec.eq_of_getLsbD_eq
  intro b hb
  exact Bool.eq_iff_iff.mpr (h ⟨f, hf⟩ ⟨b, hb⟩)

/-- A password buffer is determined by its 36 bits. -/
theorem password_ext {p q : Vector Symbol 12}
    (h : ∀ (k : Fin 12) (b : Fin 3), p[k].getLsbD b.val = true ↔ q[k].getLsbD b.val = true) :
    p = q := by
  apply Vector.ext
  intro k hk
  apply BitVec.eq_of_getLsbD_eq
  intro b hb
  exact Bool.eq_iff_iff.mpr (h ⟨k, hk⟩ ⟨b, hb⟩)

/-- A loop that ORs bits in: after it a bit is set exactly when it was before, or when some iteration
that runs its body sets it. `P` reads the bit, `hits i` says that iteration `i` sets it. -/
theorem foldl_or_iff {α ι : Type} (P : α → Prop) (hits : ι → Prop) (guard : ι → Bool)
    (body : α → ι → α) (hbody : ∀ a i, P (body a i) ↔ P a ∨ hits i) (l : List ι) (a : α) :
    P (l.foldl (fun a i => if guard i then body a i else a) a) ↔
      P a ∨ ∃ i ∈ l, guard i = true ∧ hits i := by
  induction l generalizing a with
  | nil => simp
  | cons i l ih =>
    rw [List.foldl_cons, ih]
    by_cases hg : guard i = true
    · simp only [hg, if_true, hbody, List.mem_cons, exists_eq_or_imp, true_and, or_assoc]
    · simp [hg]

end Sys2Proof.Machine
end

