-- ==== Sys2Proof/Laws/Validator.lean ====
section
/-! SUPPORT. What each check of `VAL` can answer (41_validator.md R69 to R73), and how the two groups
of checks combine. -/

namespace Sys2Proof.Machine

/-- The bounds of the Validator are those of 00_scope.md R5. -/
theorem fieldMax_eq (f : Fin 8) : fieldMax f = recordBounds[f] := rfl

/-- A bounds check fails exactly above the bound, and reports its field, value and bound. -/
theorem boundsViolation_eq_some_iff (r : Vector Byte 8) (f : Fin 8) (e : CommandError) :
    boundsViolation r f = some e ↔
      recordBounds[f] < r[f] ∧ e = .fieldOutOfBounds f r[f] recordBounds[f] := by
  by_cases h : fieldMax f < r[f]
  · rw [show boundsViolation r f = some (.fieldOutOfBounds f r[f] (fieldMax f)) from if_pos h]
    exact ⟨fun he => ⟨h, (Option.some.inj he).symm⟩, fun he => congrArg some he.2.symm⟩
  · rw [show boundsViolation r f = none from if_neg h]
    exact ⟨fun he => (nomatch he), fun he => absurd he.1 h⟩

/-- A bounds check passes exactly up to the bound. -/
theorem boundsViolation_eq_none_iff (r : Vector Byte 8) (f : Fin 8) :
    boundsViolation r f = none ↔ r[f] ≤ recordBounds[f] := by
  by_cases h : fieldMax f < r[f]
  · rw [show boundsViolation r f = some (.fieldOutOfBounds f r[f] (fieldMax f)) from if_pos h]
    exact ⟨fun he => (nomatch he), fun he => absurd h (BitVec.not_lt.mpr he)⟩
  · rw [show boundsViolation r f = none from if_neg h]
    exact ⟨fun _ => BitVec.not_lt.mp h, fun _ => rfl⟩

/-- A gating check fails exactly for a field that is not 0 below its level. -/
theorem gateViolation_eq_some_iff (f : Fin 8) (gate : Byte) (r : Vector Byte 8)
    (e : CommandError) :
    gateViolation f gate r = some e ↔
      (r[f] ≠ 0#8 ∧ r[0] < gate) ∧ e = .gatingViolation f gate := by
  by_cases h : r[f] ≠ 0#8 ∧ r[0] < gate
  · rw [show gateViolation f gate r = some (.gatingViolation f gate) from if_pos h]
    exact ⟨fun he => ⟨h, (Option.some.inj he).symm⟩, fun he => congrArg some he.2.symm⟩
  · rw [show gateViolation f gate r = none from if_neg h]
    exact ⟨fun he => (nomatch he), fun he => absurd he.1 h⟩

/-- A gating check passes exactly when it does not fail. -/
theorem gateViolation_eq_none_iff (f : Fin 8) (gate : Byte) (r : Vector Byte 8) :
    gateViolation f gate r = none ↔ ¬(r[f] ≠ 0#8 ∧ r[0] < gate) := by
  by_cases h : r[f] ≠ 0#8 ∧ r[0] < gate
  · rw [show gateViolation f gate r = some (.gatingViolation f gate) from if_pos h]
    exact ⟨fun he => (nomatch he), fun he => absurd h he⟩
  · rw [show gateViolation f gate r = none from if_neg h]
    exact ⟨fun _ => h, fun _ => rfl⟩

/-- The bounds checks all pass exactly on a record within its bounds. -/
theorem firstBoundsViolation_eq_none_iff (r : Vector Byte 8) :
    firstBoundsViolation r = none ↔ WithinBounds r := by
  simp only [firstBoundsViolation, List.findSome?_eq_none_iff, List.mem_finRange, forall_const,
    boundsViolation_eq_none_iff, WithinBounds]

/-- `VAL` answers the bounds error when there is one, the gating error otherwise. -/
theorem validate_cases (r : Vector Byte 8) :
    (∃ e, firstBoundsViolation r = some e ∧ validate r = some e) ∨
    (firstBoundsViolation r = none ∧ validate r = firstGatingViolation r) := by
  unfold validate
  cases h : firstBoundsViolation r <;> simp

end Sys2Proof.Machine
end

