-- ==== Sys2Proof/Laws/Commands.lean ====
section
/-! SUPPORT. Everything each command can do, said once: the cases of a next state, in the order in which
the command takes them. Later proofs cite these and do not unfold a command. -/

namespace Sys2Proof.Machine

/-- Error entry as a replacement of the four result registers. -/
theorem raiseError_eq_withResult (e : CommandError) (s : State) :
    raiseError e s =
      withResult s (statusWord false (errorCode e)) (errorInfo0 e) (errorInfo1 e) (errorInfo2 e) :=
  rfl

/-- `EmptyPassword` in the result registers (60_exceptions.md R108). -/
theorem raiseError_emptyPassword (s : State) :
    raiseError .emptyPassword s = withResult s 0b0010#4 0#8 0#8 0#8 := by
  rw [raiseError_eq_withResult]
  exact congrArg (fun w => withResult s w 0#8 0#8 0#8) (by decide)

/-- `ChecksumMismatch` in the result registers (R109). -/
theorem raiseError_checksumMismatch (computed found : Symbol) (s : State) :
    raiseError (.checksumMismatch computed found) s =
      withResult s 0b0100#4 (computed.setWidth 8) (found.setWidth 8) 0#8 := by
  rw [raiseError_eq_withResult]
  exact congrArg (fun w => withResult s w (computed.setWidth 8) (found.setWidth 8) 0#8)
    (show statusWord false 2#3 = 0b0100#4 by decide)

/-- `FieldOutOfBounds` in the result registers (R110). -/
theorem raiseError_fieldOutOfBounds (f : Fin 8) (value max : Byte) (s : State) :
    raiseError (.fieldOutOfBounds f value max) s =
      withResult s 0b0110#4 (BitVec.ofNat 8 f.val) value max := by
  rw [raiseError_eq_withResult]
  exact congrArg (fun w => withResult s w (BitVec.ofNat 8 f.val) value max)
    (show statusWord false 3#3 = 0b0110#4 by decide)

/-- `GatingViolation` in the result registers (R111). -/
theorem raiseError_gatingViolation (f : Fin 8) (gate : Byte) (s : State) :
    raiseError (.gatingViolation f gate) s =
      withResult s 0b1000#4 (BitVec.ofNat 8 f.val) gate 0#8 := by
  rw [raiseError_eq_withResult]
  exact congrArg (fun w => withResult s w (BitVec.ofNat 8 f.val) gate 0#8)
    (show statusWord false 4#3 = 0b1000#4 by decide)

/-- Success as a replacement of the four result registers. -/
theorem succeed_eq_withResult (s : State) : succeed s = withResult s 0b0001#4 0#8 0#8 0#8 := rfl

/-- The `STATUS` word of an error is none of success and nothing run. -/
theorem raiseError_status_ne (e : CommandError) (s : State) :
    (raiseError e s).status ≠ 0b0001#4 ∧ (raiseError e s).status ≠ 0b0000#4 := by
  cases e <;>
    exact ⟨by simp [statusWord, errorCode], by simp [statusWord, errorCode]⟩

/-- `DEC` by the length it finds. -/
theorem execDec_cases (s : State) :
    (s.len = 0#4 ∧ exec .dec s = .next (raiseError .emptyPassword s)) ∨
    (∃ c : Fin 12, s.len.toNat = c.val + 1 ∧ exec .dec s = .next (decodePassword c s)) ∨
    (13 ≤ s.len.toNat ∧ exec .dec s = .refused .reservedLength) := by
  simp only [exec, execDec]
  split
  · exact .inl ⟨‹_›, rfl⟩
  · rename_i h0
    have hne : s.len.toNat ≠ 0 := fun h => h0 (BitVec.eq_of_toNat_eq (by simpa using h))
    split
    · rename_i c hc
      exact .inr (.inl ⟨c, (checksumSlot_eq_some_iff _ _).mp hc, rfl⟩)
    · rename_i hn
      exact .inr (.inr ⟨((checksumSlot_eq_none_iff _).mp hn).resolve_left hne, rfl⟩)

/-- `DEC` with the checksum symbol in slot `c` decodes the password there. -/
theorem exec_dec_of_length (s : State) (c : Fin 12) (h : s.len.toNat = c.val + 1) :
    exec .dec s = .next (decodePassword c s) := by
  rcases execDec_cases s with ⟨h0, -⟩ | ⟨d, hd, he⟩ | ⟨hr, -⟩
  · rw [h0] at h; simp at h
  · have : d = c := Fin.ext (by omega)
    subst this; exact he
  · have := c.isLt; omega

/-- What `DEC` does with a password: a mismatch, a violation of the assembled record, or success. -/
theorem decodePassword_cases (c : Fin 12) (s : State) :
    (checksum (s.sym.toList.take c.val) ≠ s.sym[c] ∧
      decodePassword c s = raiseError
        (.checksumMismatch (checksum (s.sym.toList.take c.val)) s.sym[c]) s) ∨
    (checksum (s.sym.toList.take c.val) = s.sym[c] ∧
      ((∃ e, validate (accumulate s.table s.sym c) = some e ∧
          decodePassword c s = raiseError e s) ∨
       (validate (accumulate s.table s.sym c) = none ∧
          decodePassword c s = succeed (putRecord (accumulate s.table s.sym c) s)))) := by
  unfold decodePassword payloadSymbols
  by_cases h : checksum (s.sym.toList.take c.val) = s.sym[c]
  · refine .inr ⟨h, ?_⟩
    simp only [h, ne_eq, not_true_eq_false, if_false, commitRecord]
    cases hv : validate (accumulate s.table s.sym c) <;> simp
  · exact .inl ⟨h, if_pos h⟩

/-- What `ENC` does with a record: a violation of it, or the password committed. -/
theorem encodeRecord_cases (s : State) :
    (∃ e, validate s.record = some e ∧ encodeRecord s = raiseError e s) ∨
    (validate s.record = none ∧
      encodeRecord s = commitPassword (scatter s.table s.record) s) := by
  unfold encodeRecord
  cases hv : validate s.record <;> simp

/-- `ENC` always ends in a next state. -/
theorem exec_enc_eq (s : State) : exec .enc s = .next (encodeRecord s) := rfl

/-- The scan of `ENC` finds a slot with only zeros from it on, and a symbol that is not 0 just below it
unless it is slot 0. -/
theorem freeSlot_spec (b : Vector Symbol 12) :
    (∀ k : Fin 12, freeSlot b ≤ k.val → b[k] = 0#3) ∧
    (freeSlot b = 0 ∨ ∃ k : Fin 12, freeSlot b = k.val + 1 ∧ b[k] ≠ 0#3) := by
  unfold freeSlot
  split
  · rename_i k hk
    have hsome := List.find?_eq_some_iff_append.mp hk
    obtain ⟨hp, as, bs, hl, has⟩ := hsome
    refine ⟨fun m hm => ?_, .inr ⟨k, rfl, by simpa using hp⟩⟩
    have hmem : m ∈ (List.finRange 12).reverse := by simp
    rw [hl] at hmem
    rcases List.mem_append.mp hmem with h | h
    · simpa using has m h
    · exfalso
      have hsorted : ((List.finRange 12).reverse).Pairwise (fun a b : Fin 12 => b < a) := by decide
      rw [hl] at hsorted
      have hkm := (List.pairwise_append.mp hsorted).2.1
      rcases List.mem_cons.mp h with h | h
      · subst h; omega
      · have := (List.pairwise_cons.mp hkm).1 m h
        have : m.val < k.val := this
        omega
  · rename_i hnone
    refine ⟨fun k _ => ?_, .inl rfl⟩
    have := List.find?_eq_none.mp hnone k (by simp)
    simpa using this

end Sys2Proof.Machine
end

