-- ==== Sys2Proof/Laws/HostPort.lean ====
section
/-! SUPPORT. What a port access and a step can do, said once. -/

namespace Sys2Proof.Machine

/-- A port access either is refused for the decoder's reason or performs the access it decodes to. -/
theorem performPort_cases (p : PortAccess) (s : State) :
    (∃ a, decodeAccess p = .ok a ∧ performPort p s = performAccess a s) ∨
    (∃ why, decodeAccess p = .error why ∧ performPort p s = .refused (.access why)) := by
  unfold performPort
  cases h : decodeAccess p <;> simp

/-- An access that has a value to read answers the host with it, under its own register number. -/
theorem performAccess_read (a : Access) (s : State) (v : Byte) (h : accessValue a s = some v) :
    ∃ n, encodeAccess a = .read n ∧ performAccess a s = .next (answer n v s) := by
  cases a <;> simp only [accessValue, Option.some.injEq, reduceCtorEq] at h <;> subst h <;>
    exact ⟨_, rfl, rfl⟩

/-- Everything an access can do: set one element, run a command, answer the host, or reset. -/
theorem performAccess_cases (a : Access) (s : State) :
    (∃ f v, a = .wrec f v ∧ performAccess a s = .next (writeRec f v s)) ∨
    (∃ k v, a = .wsym k v ∧ performAccess a s = .next (writeSym k v s)) ∨
    (∃ n, a = .wlen n ∧ performAccess a s = .next (writeLen n s)) ∨
    (∃ i, a = .cmd i ∧ performAccess a s = exec i s) ∨
    (∃ n v, encodeAccess a = .read n ∧ performAccess a s = .next (answer n v s)) ∨
    (a = .reset ∧ performAccess a s = .next (resetBlock s)) := by
  cases a with
  | wrec f v => exact .inl ⟨f, v, rfl, rfl⟩
  | wsym k v => exact .inr (.inl ⟨k, v, rfl, rfl⟩)
  | wlen n => exact .inr (.inr (.inl ⟨n, rfl, rfl⟩))
  | cmd i => exact .inr (.inr (.inr (.inl ⟨i, rfl, rfl⟩)))
  | reset => exact .inr (.inr (.inr (.inr (.inr ⟨rfl, rfl⟩))))
  | _ => exact .inr (.inr (.inr (.inr (.inl ⟨_, _, rfl, rfl⟩))))

/-- A step with an access pending performs it on the rest. -/
theorem step_of_pending {s : State} {p : PortAccess} {rest : List PortAccess}
    (h : s.pending = p :: rest) : step s = performPort p (putPending rest s) := by
  simp [step, nextAccess, h]

/-- Everything a step can do: hold, or perform the next access. -/
theorem step_cases (s : State) :
    (s.pending = [] ∧ step s = .next s) ∨
    (∃ p rest, s.pending = p :: rest ∧ step s = performPort p (putPending rest s)) := by
  cases h : s.pending with
  | nil => exact .inl ⟨rfl, by simp [step, nextAccess, h]⟩
  | cons p rest => exact .inr ⟨p, rest, rfl, step_of_pending h⟩

/-- A step fetches the access that was presented. -/
theorem step_presentAccess (p : PortAccess) (s : State) :
    step (presentAccess p s) = performPort p s := rfl

/-- A run of any machine goes on from a next state. -/
theorem run_succ_of_next (M : Host.Core) (k : Nat) (s t : M.State) (h : M.step s = .next t) :
    M.run (k + 1) s = M.run k t := by rw [Host.Core.run, h]

/-- A run of any machine ends at a refusal. -/
theorem run_succ_of_refused (M : Host.Core) (k : Nat) (s : M.State) (r : M.Refusal)
    (h : M.step s = .refused r) : M.run (k + 1) s = .refused r := by rw [Host.Core.run, h]

/-- No steps leave the state. -/
theorem core_run_zero (s : State) : Sys2Proof.core.run 0 s = .next s := rfl

/-- A run is one step and then the rest of the run. -/
theorem core_run_succ (k : Nat) (s : State) :
    Sys2Proof.core.run (k + 1) s = andThen (step s) (Sys2Proof.core.run k) := by
  cases h : step s with
  | next t => exact run_succ_of_next Sys2Proof.core k s t h
  | fault r => exact nomatch r
  | refused r => exact run_succ_of_refused Sys2Proof.core k s r h

end Sys2Proof.Machine
end

