-- ==== Sys2Proof/Laws/PerInstr.lean ====
section
/-! SUPPORT. Statements about every command as syntax, one lemma per constructor of `Instr`. -/

namespace Sys2Proof.Laws

/-- The command is well formed, its word fits the one bit of `CMD`, and the port decodes that word to
the command (30_encoding.md R57). -/
def CommandWord.Statement (i : Instr) : Prop :=
  i.wellFormed = true ∧ encodeInstr i < 2 ∧ decodeInstr (encodeInstr i) = some i ∧
    decodeAccess (.write cmdNumber (encodeInstr i)) = .ok (.cmd i)

theorem CommandWord.dec : CommandWord.Statement .dec := ⟨rfl, by decide, rfl, rfl⟩

theorem CommandWord.enc : CommandWord.Statement .enc := ⟨rfl, by decide, rfl, rfl⟩

end Sys2Proof.Laws
end

