-- ==== Sys2Proof/Tests/Slice0.lean ====
section
/-! SUPPORT. Tests, with expected results from spec/95_test_vectors.md and the rules' examples, and for
every statement that has hypotheses a concrete state and operands that meet them together. -/

namespace Sys2Proof.Tests

open Sys2Proof Sys2Proof.Machine

/-! ### Helpers -/

/-- `TABLE_EX` of 95_test_vectors.md, packed. -/
def exampleTable : Vector TableEntry 32 :=
  #v[0#6, 1, 2, 3, 4, 8, 9, 10, 11, 12, 13, 14, 16, 17, 18, 24, 25, 26, 32, 33, 34, 40, 41, 42, 48, 49,
    56, 57, 58, 59, 60, 61]

/-- `TABLE_EX2` of 95_test_vectors.md: the same entries in reverse order. -/
def reversedTable : Vector TableEntry 32 := exampleTable.reverse

/-- After reset, with a table and a password. -/
def passwordState (table : Vector TableEntry 32) (p : Vector Symbol 12) (n : LenWord) : State :=
  { State.reset with table := table, sym := p, len := n }

/-- After reset, with a table and a record. -/
def recordState (table : Vector TableEntry 32) (r : Vector Byte 8) : State :=
  { State.reset with table := table, record := r }

/-- The next state, when there is one. -/
def nextState (o : Host.Outcome State Fault Refusal) : Option State :=
  match o with
  | .next t => some t
  | .fault _ => none
  | .refused _ => none

/-- The four result registers of the next state. -/
def resultOf (o : Host.Outcome State Fault Refusal) : Option (Nat × Nat × Nat × Nat) :=
  (nextState o).map fun t => (t.status.toNat, t.einfo0.toNat, t.einfo1.toNat, t.einfo2.toNat)

/-- The password `[3, 4, 7, 5, 3]` of the source's scenario. -/
def scenarioPassword : State := passwordState exampleTable #v[3, 4, 7, 5, 3, 0, 0, 0, 0, 0, 0, 0] 5

/-- The record of the source's scenario: level 3, 95 lives. -/
def scenarioRecord : State := recordState exampleTable #v[3, 95, 0, 0, 0, 0, 0, 0]

/-- The longest password: all fields at their bounds (V-DEC-29). -/
def longestPassword : State := passwordState exampleTable #v[7, 7, 1, 6, 7, 7, 7, 7, 3, 0, 3, 7] 12

/-- The scenario's password under the reversed table: `seed` decodes to 49. -/
def reversedPassword : State := { scenarioPassword with table := reversedTable }

/-- The scenario's password with other values in everything that `DEC` does not read. -/
def otherPassword : State :=
  { scenarioPassword with
    sym := #v[3, 4, 7, 5, 3, 6, 6, 6, 6, 6, 6, 6], record := Vector.replicate 8 9#8, einfo0 := 1#8 }

/-- V-DEC-21: `birds = 1` at level 0. -/
def birdsPassword : State := passwordState exampleTable #v[0, 0, 0, 0, 1, 1, 0, 0, 0, 0, 0, 0] 6

/-- The one symbol 1: a wrong checksum. -/
def oneSymbolPassword : State := passwordState exampleTable #v[1, 0, 0, 0, 0, 0, 0, 0, 0, 0, 0, 0] 1

/-- V-DEC-19: the symbols 1, 1. -/
def twoSymbolPassword : State := passwordState exampleTable #v[1, 1, 0, 0, 0, 0, 0, 0, 0, 0, 0, 0] 2

/-- The ignored bit alone, with the checksum symbol 0: a wrong checksum. -/
def wrongLongPassword : State := passwordState exampleTable #v[0, 0, 0, 0, 0, 0, 0, 0, 0, 0, 4, 0] 12

/-- The scenario's payload with zeros, length 11. -/
def elevenSymbolPassword : State :=
  passwordState exampleTable #v[3, 4, 7, 5, 0, 0, 0, 0, 0, 0, 3, 0] 11

/-- The same with one zero more (V-DEC-16). -/
def twelveSymbolPassword : State :=
  passwordState exampleTable #v[3, 4, 7, 5, 0, 0, 0, 0, 0, 0, 0, 3] 12

/-- The all-zero record. -/
def emptyRecord : State := recordState exampleTable (Vector.replicate 8 0#8)

/-- Every field at its bound. -/
def fullRecord : State := recordState exampleTable #v[31, 99, 7, 7, 7, 7, 3, 48]

/-- `level` one above its bound. -/
def levelTooHigh : State := recordState exampleTable #v[32, 0, 0, 0, 0, 0, 0, 0]

/-- `seed` one above its bound. -/
def seedTooHigh : State := recordState exampleTable #v[0, 0, 0, 0, 0, 0, 0, 49]

/-! ### Well-formedness: one ill-formed access for each check (20_memory.md R28, R29, R32, R33) -/

theorem test_wf_refuses_numbers_outside : (PortAccess.read 64).wellFormed = false ∧
    (PortAccess.write 64 0).wellFormed = false := by decide
theorem test_wf_refuses_read_of_command : (PortAccess.read 21).wellFormed = false := by decide
theorem test_wf_refuses_reserved_numbers : (PortAccess.read 27).wellFormed = false ∧
    (PortAccess.write 31 0).wellFormed = false := by decide
theorem test_wf_refuses_read_only_writes : (PortAccess.write 22 0).wellFormed = false ∧
    (PortAccess.write 26 0).wellFormed = false ∧ (PortAccess.write 63 0).wellFormed = false := by decide
theorem test_wf_refuses_wide_values : (PortAccess.write 7 256).wellFormed = false ∧
    (PortAccess.write 19 8).wellFormed = false ∧ (PortAccess.write 20 16).wellFormed = false ∧
    (PortAccess.write 21 2).wellFormed = false := by decide

/-! ### Decoding: one written-out encoding of each form (30_encoding.md R57, R61) -/

theorem test_decode_dec : decodeAccess (.write 0b010101 0b0) = .ok (.cmd .dec) := rfl
theorem test_decode_enc : decodeAccess (.write 0b010101 0b1) = .ok (.cmd .enc) := rfl
theorem test_table_words : decodeTableWord 8 0b00000000 = some .dec ∧
    decodeTableWord 8 0b00000001 = some .enc ∧ decodeTableWord 8 0b00000010 = none := by decide
theorem test_decode_wrec : decodeAccess (.write 0b000111 0b11111111) = .ok (.wrec 7 0xFF#8) := rfl
theorem test_decode_wsym : decodeAccess (.write 0b010011 0b110) = .ok (.wsym 11 6#3) := rfl
theorem test_decode_wlen : decodeAccess (.write 0b010100 0b1100) = .ok (.wlen 12#4) := rfl
theorem test_decode_rrec : decodeAccess (.read 0b000101) = .ok (.rrec 5) := rfl
theorem test_decode_rsym : decodeAccess (.read 0b001000) = .ok (.rsym 0) := rfl
theorem test_decode_rlen : decodeAccess (.read 0b010100) = .ok .rlen := rfl
theorem test_decode_rstat : decodeAccess (.read 0b010110) = .ok .rstat := rfl
theorem test_decode_rei : decodeAccess (.read 0b011001) = .ok (.rei 2) := rfl
theorem test_decode_rlvl : decodeAccess (.read 0b011010) = .ok .rlvl := rfl
theorem test_decode_rtab : decodeAccess (.read 0b111111) = .ok (.rtab 31) := rfl
theorem test_decode_reset : decodeAccess .reset = .ok .reset := rfl

/-! ### The commands, one step each -/

/-- V-DEC-14: the example of 42_decoder.md R76. -/
theorem test_dec_example : ((nextState (exec .dec scenarioPassword)).map
    fun t => (t.status, t.record)) = some (0b0001#4, #v[3, 95, 0, 0, 0, 0, 0, 0]) := by decide +kernel
/-- V-DEC-14 under `TABLE_EX2`: `FOOB(7, 49, 48)`. -/
theorem test_dec_out_of_bounds : resultOf (exec .dec reversedPassword) =
    some (0b0110, 7, 49, 48) := by decide +kernel
/-- The example of 43_encoder.md R85. -/
theorem test_enc_example : ((nextState (exec .enc scenarioRecord)).map
    fun t => (t.status, t.sym, t.len)) =
      some (0b0001#4, #v[3, 4, 7, 5, 3, 0, 0, 0, 0, 0, 0, 0], 5#4) := by decide +kernel
/-- The example of 41_validator.md R68: `pharts` is reported before `birds`. -/
theorem test_enc_gating : resultOf (exec .enc (recordState exampleTable #v[2, 0, 1, 1, 0, 0, 0, 0])) =
    some (0b1000, 3, 3, 0) := by decide +kernel
/-- The example of 40_checksum.md R64. -/
theorem test_checksum_example : checksum [3, 4, 7, 5] = 3#3 := by decide
/-- The first instruction after reset, as the host's interface presents it (70_reset_and_hazards.md
R128). -/
theorem test_first_dec : resultOf (step (State.reset.withFetchWord 8 0)) = some (0b0010, 0, 0, 0) := by
  decide +kernel
/-- `ENC` as the first instruction after reset ends in a next state, with the opaque table in place. -/
theorem test_first_enc : (nextState (step (State.reset.withFetchWord 8 1))).isSome = true := by
  decide +kernel
/-- The same under `TABLE_EX`. -/
theorem test_first_enc_result : resultOf
    (step (State.withFetchWord { State.reset with table := exampleTable } 8 1)) =
      some (0b0001, 0, 0, 0) := by decide +kernel
/-- `TABLE_EX` meets WF2 (95_test_vectors.md section 2). -/
theorem test_example_table_wf2 : WF2 exampleTable := by decide +kernel

/-! ### Witnesses: port and steps -/

/-- Boundary encodings of the second clause. -/
theorem witness_AccessEncodingRoundTrips : decodeAccess (.write 19 7) = .ok (.wsym 11 7#3) ∧
    decodeAccess (.read 63) = .ok (.rtab 31) := ⟨rfl, rfl⟩
theorem witness_CommandWordsDecode : (2 : Nat) ≤ 2 ∧ decodeTableWord 8 2 = none := by decide
theorem witness_StepPerformsTheDecodedAccess :
    (presentAccess (.write 21 1) scenarioRecord).pending = .write 21 1 :: [] ∧
    decodeAccess (.write 21 1) = .ok (.cmd .enc) := ⟨rfl, rfl⟩
theorem witness_PresentedCommandWordRuns : decodeTableWord 8 1 = some .enc := by decide
theorem witness_ReadsAndIdleStepsChangeNoRegister : State.reset.pending = [] ∧
    registerValue 0 scenarioRecord = some 3#8 ∧ registerValue 63 scenarioRecord = some 61#8 := by
  decide +kernel
theorem witness_WritesSetOneElement : (∃ n : Nat, n ≠ (0 : Fin 8).val ∧ ¬(n = 26 ∧ (0 : Fin 8) = 0)) ∧
    (26 : Nat) ≠ (7 : Fin 8).val ∧ ¬((26 : Nat) = 26 ∧ (7 : Fin 8) = 0) := ⟨⟨1, by decide⟩, by decide⟩
/-- Boundary numbers: no number falls under both clauses of the writes. -/
theorem witness_MeaninglessAccessesAreRefused :
    (∀ n ∈ [22, 26, 32, 63], (22 ≤ n ∧ n ≤ 26) ∨ (32 ≤ n ∧ n ≤ 63)) ∧
    (∀ n ∈ [27, 31], 27 ≤ n ∧ n ≤ 31) ∧
    ∀ n < 64, ¬(((22 ≤ n ∧ n ≤ 26) ∨ (32 ≤ n ∧ n ≤ 63)) ∧ (27 ≤ n ∧ n ≤ 31)) := by decide
theorem witness_ResetClearsEveryRegisterButTheTable : (26 : Nat) ≤ 26 ∧ (26 : Nat) ≠ 21 ∧
    (32 : Nat) ≤ 32 ∧ registerValue 26 scenarioRecord = some 3#8 := by decide
theorem witness_TableKeepsItsValues : (∃ t, performPort .reset scenarioRecord = .next t) ∧
    ∃ t, Sys2Proof.core.run 2 (presentAccess (.write 21 1) scenarioRecord) = .next t :=
  ⟨⟨_, rfl⟩, ⟨_, rfl⟩⟩
/-- Two blocks, each about to run a command. -/
theorem witness_BlocksDoNotInteract :
    ∃ cs ds : List State, cs.length = 2 ∧ ds.length = 2 ∧ (0 : Fin 2) ≠ 1 ∧
      stepBlock [presentAccess (.write 21 0) scenarioPassword,
        presentAccess (.write 21 1) scenarioRecord] 0 = .next cs ∧
      stepBlock [presentAccess (.write 21 0) scenarioPassword,
        presentAccess (.write 21 1) scenarioRecord] 1 = .next ds ∧
      sameTable [presentAccess (.write 21 0) scenarioPassword,
        presentAccess (.write 21 1) scenarioRecord] :=
  ⟨_, _, rfl, rfl, by decide, rfl, rfl, by simp [sameTable, scenarioPassword, scenarioRecord,
    presentAccess, putPending, passwordState, recordState]⟩
/-- The shortest and the longest list of symbols, of the three statements that load one. -/
theorem witness_LoadsPlaceTheirOperands : ([] : List Symbol).length ≤ 12 ∧
    (longestPassword.sym.toList).length ≤ 12 := by decide
theorem witness_DecodeCallAnswersTheHost : ([] : List Symbol).length ≤ 12 ∧
    (longestPassword.sym.toList).length ≤ 12 := by decide

/-! ### Witnesses: CHK and VAL -/

theorem witness_ChecksumIgnoresZerosAndOrder :
    (([3, 0, 4] : List Symbol).filter (fun x => x ≠ 0#3)).Perm
      (([4, 3, 0, 0] : List Symbol).filter (fun x => x ≠ 0#3)) := by decide
/-- Each of the two clauses about `validate`, just below the gate. -/
theorem witness_WilliesAndEnemasGates :
    (WithinBounds #v[12, 0, 0, 0, 0, 1, 0, 0] ∧
      (#v[12, 0, 0, 0, 0, 1, 0, 0] : Vector Byte 8)[5] ≠ 0#8 ∧
      (#v[12, 0, 0, 0, 0, 1, 0, 0] : Vector Byte 8)[0] < 13#8) ∧
    (WithinBounds #v[9, 0, 0, 0, 1, 0, 0, 0] ∧
      ¬((#v[9, 0, 0, 0, 1, 0, 0, 0] : Vector Byte 8)[5] ≠ 0#8 ∧
        (#v[9, 0, 0, 0, 1, 0, 0, 0] : Vector Byte 8)[0] < 13#8) ∧
      (#v[9, 0, 0, 0, 1, 0, 0, 0] : Vector Byte 8)[4] ≠ 0#8 ∧
      (#v[9, 0, 0, 0, 1, 0, 0, 0] : Vector Byte 8)[0] < 10#8) := by decide

/-! ### Witnesses: `DEC` -/

/-- The scenario's password, and the longest one. -/
theorem witness_DecodeCommitsTheAssembledRecord :
    (RightChecksum scenarioPassword.sym scenarioPassword.len.toNat ∧
      AssembledRecord scenarioPassword.table scenarioPassword.sym scenarioPassword.len.toNat
        #v[3, 95, 0, 0, 0, 0, 0, 0] ∧
      ValidRecord #v[3, 95, 0, 0, 0, 0, 0, 0]) ∧
    (RightChecksum longestPassword.sym longestPassword.len.toNat ∧
      AssembledRecord longestPassword.table longestPassword.sym longestPassword.len.toNat
        #v[31, 99, 7, 7, 7, 7, 3, 48] ∧
      ValidRecord #v[31, 99, 7, 7, 7, 7, 3, 48]) := by decide +kernel
theorem witness_EmptyPasswordIsRaisedExactlyAtLengthZero : State.reset.len = 0#4 ∧
    ∃ t, exec .dec State.reset = .next t ∧ t.status = 0b0010#4 := ⟨rfl, _, rfl, by decide⟩
/-- The shortest and the longest password with a wrong checksum, and a command that ends so. -/
theorem witness_ChecksumMismatchIsRaisedExactlyOnAWrongChecksum :
    (oneSymbolPassword.len.toNat = (0 : Fin 12).val + 1 ∧
      symbolSum (oneSymbolPassword.sym.toList.take (0 : Fin 12).val) % 8 ≠
        oneSymbolPassword.sym[(0 : Fin 12)].toNat) ∧
    (wrongLongPassword.len.toNat = (11 : Fin 12).val + 1 ∧
      symbolSum (wrongLongPassword.sym.toList.take (11 : Fin 12).val) % 8 ≠
        wrongLongPassword.sym[(11 : Fin 12)].toNat) ∧
    ∃ t, exec .dec oneSymbolPassword = .next t ∧ t.status = 0b0100#4 :=
  ⟨by decide, by decide, _, rfl, by decide⟩
/-- `seed` one above its bound in `DEC`, `level` and `seed` one above theirs in `ENC`, and a command of
each kind that ends so. -/
theorem witness_FieldOutOfBoundsInBothDirections :
    (RightChecksum reversedPassword.sym reversedPassword.len.toNat ∧
      AssembledRecord reversedPassword.table reversedPassword.sym reversedPassword.len.toNat
        #v[0, 0, 0, 0, 4, 6, 3, 49] ∧
      (∀ g : Fin 8, g < 7 → (#v[0, 0, 0, 0, 4, 6, 3, 49] : Vector Byte 8)[g] ≤ recordBounds[g]) ∧
      recordBounds[7] < (#v[0, 0, 0, 0, 4, 6, 3, 49] : Vector Byte 8)[7]) ∧
    ((∀ g : Fin 8, g < 0 → levelTooHigh.record[g] ≤ recordBounds[g]) ∧
      recordBounds[0] < levelTooHigh.record[0]) ∧
    ((∀ g : Fin 8, g < 7 → seedTooHigh.record[g] ≤ recordBounds[g]) ∧
      recordBounds[7] < seedTooHigh.record[7]) ∧
    (∃ t, exec .dec reversedPassword = .next t ∧ t.status = 0b0110#4) ∧
    ∃ t, exec .enc levelTooHigh = .next t ∧ t.status = 0b0110#4 :=
  ⟨by decide +kernel, by decide, by decide, ⟨_, rfl, by decide +kernel⟩, _, rfl, by decide +kernel⟩
/-- `birds` at level 0 in `DEC` (V-DEC-21), each gate just below its level in `ENC`, and a command of
each kind that ends so. -/
theorem witness_GatingViolationInBothDirections :
    (RightChecksum birdsPassword.sym birdsPassword.len.toNat ∧
      AssembledRecord birdsPassword.table birdsPassword.sym birdsPassword.len.toNat
        #v[0, 0, 1, 0, 0, 0, 0, 0] ∧
      WithinBounds #v[0, 0, 1, 0, 0, 0, 0, 0] ∧ FirstGateFailure #v[0, 0, 1, 0, 0, 0, 0, 0] 2 3#8) ∧
    (WithinBounds #v[12, 0, 0, 0, 0, 1, 0, 0] ∧
      FirstGateFailure #v[12, 0, 0, 0, 0, 1, 0, 0] 5 13#8) ∧
    (WithinBounds #v[9, 0, 0, 0, 1, 0, 0, 0] ∧ FirstGateFailure #v[9, 0, 0, 0, 1, 0, 0, 0] 4 10#8) ∧
    (WithinBounds #v[2, 0, 0, 1, 0, 0, 0, 0] ∧ FirstGateFailure #v[2, 0, 0, 1, 0, 0, 0, 0] 3 3#8) ∧
    (WithinBounds #v[2, 0, 1, 0, 0, 0, 0, 0] ∧ FirstGateFailure #v[2, 0, 1, 0, 0, 0, 0, 0] 2 3#8) ∧
    (∃ t, exec .dec birdsPassword = .next t ∧ t.status = 0b1000#4) ∧
    ∃ t, exec .enc (recordState exampleTable #v[2, 0, 0, 1, 0, 0, 0, 0]) = .next t ∧
      t.status = 0b1000#4 :=
  ⟨by decide +kernel, by decide, by decide, by decide, by decide, ⟨_, rfl, by decide +kernel⟩, _, rfl,
    by decide +kernel⟩
theorem witness_DecodeEndsExactlyForLengthsUpToTwelve : (12#4).toNat ≤ 12 ∧ 13 ≤ (13#4).toNat ∧
    13 ≤ (15#4).toNat := by decide
theorem witness_LengthOnePasswords :
    (passwordState exampleTable (Vector.replicate 12 0#3) 1).len = 1#4 ∧
    (passwordState exampleTable (Vector.replicate 12 0#3) 1).sym[0] = 0#3 ∧
    (passwordState exampleTable (Vector.replicate 12 1#3) 1).sym[0] ≠ 0#3 := by decide
theorem witness_DecodeFrame : (∃ t, exec .dec scenarioPassword = .next t) ∧
    ∃ t, exec .dec State.reset = .next t ∧ t.status ≠ 0b0001#4 := ⟨⟨_, rfl⟩, _, rfl, by decide⟩
/-- Two states that agree on the table and the password only, and a reserved length. -/
theorem witness_DecodeDependsOnItsOperandsOnly :
    (scenarioPassword.table = otherPassword.table ∧ SamePassword scenarioPassword otherPassword ∧
      ∃ t, exec .dec scenarioPassword = .next t ∧ t.status = 0b0001#4) ∧
    (scenarioPassword.record ≠ otherPassword.record ∧ scenarioPassword.sym ≠ otherPassword.sym) ∧
    exec .dec (writeLen 13#4 scenarioPassword) = .refused .reservedLength :=
  ⟨⟨rfl, by decide, _, rfl, by decide +kernel⟩, by decide, rfl⟩
/-- V-DEC-27 and V-DEC-28. -/
theorem witness_DecodeBoundsErrorsUnderWF2 : WF2 exampleTable ∧
    resultOf (exec .dec (passwordState exampleTable #v[0, 4, 7, 7, 2, 0, 0, 0, 0, 0, 0, 0] 5)) =
      some (0b0110, 1, 127, 99) ∧
    resultOf (exec .dec (passwordState exampleTable #v[0, 0, 0, 0, 0, 0, 0, 0, 4, 7, 3, 6] 12)) =
      some (0b0110, 7, 63, 48) := by decide +kernel

/-! ### Witnesses: `ENC` -/

/-- The first and the last checksum slot. -/
theorem witness_EncodeCommitsTheAssembledPassword :
    (ValidRecord emptyRecord.record ∧
      AssembledPayload emptyRecord.table emptyRecord.record (Vector.replicate 12 0#3) ∧
      IsChecksumSlot (Vector.replicate 12 0#3) 0) ∧
    (ValidRecord fullRecord.record ∧
      AssembledPayload fullRecord.table fullRecord.record #v[7, 7, 1, 6, 7, 7, 7, 7, 3, 0, 3, 0] ∧
      IsChecksumSlot #v[7, 7, 1, 6, 7, 7, 7, 7, 3, 0, 3, 0] 11) := by decide +kernel
theorem witness_EncodeFrame : (∃ t, exec .enc scenarioRecord = .next t) ∧
    ∃ t, exec .enc levelTooHigh = .next t ∧ t.status ≠ 0b0001#4 := ⟨⟨_, rfl⟩, _, rfl, by decide +kernel⟩
theorem witness_EncodeDependsOnTheRecordOnly :
    scenarioRecord.table = (writeLen 9#4 scenarioRecord).table ∧
    scenarioRecord.record = (writeLen 9#4 scenarioRecord).record := ⟨rfl, rfl⟩
/-- A record whose password has length 12, so that every clause applies. -/
theorem witness_EncodeLeavesACanonicalPassword : ValidRecord fullRecord.record ∧
    (nextState (exec .enc fullRecord)).map (·.len) = some 12#4 := by decide +kernel
theorem witness_ZeroRecordEncodesToOneZeroSymbol :
    State.reset.record = Vector.replicate 8 0#8 := rfl

/-! ### Witnesses: the pair of commands -/

/-- The premise of the second clause is the law itself, which the first clause gives of `TABLE_EX`. -/
theorem witness_RoundTripOfValidRecords :
    (WF2 scenarioRecord.table ∧ ValidRecord scenarioRecord.record) ∧
    (Obligations.RoundTripOfValidRecords → ∀ r, ValidRecord r → RoundTrips scenarioRecord r) :=
  ⟨⟨test_example_table_wf2, by decide⟩, fun h r hr => h.1 _ r test_example_table_wf2 hr⟩
theorem witness_ReencodedPasswordDecodesAlike :
    ∃ t, exec .dec longestPassword = .next t ∧ t.status = 0b0001#4 := ⟨_, rfl, by decide +kernel⟩
/-- The shortest password that has a payload symbol and the longest one: the last payload symbol below
the checksum symbol, and the checksum symbol itself. -/
theorem witness_OneFlippedBitFailsTheChecksum :
    (twoSymbolPassword.len.toNat = (1 : Fin 12).val + 1 ∧
      RightChecksum twoSymbolPassword.sym twoSymbolPassword.len.toNat ∧ (0 : Fin 12) < 1) ∧
    (longestPassword.len.toNat = (11 : Fin 12).val + 1 ∧
      RightChecksum longestPassword.sym longestPassword.len.toNat ∧ (10 : Fin 12) < 11 ∧
      (11 : Fin 12) = 11) := by decide
/-- V-DEC-29 with V-DEC-30, and one that fails the checksum. -/
theorem witness_IgnoredBitWithAdjustedChecksum : longestPassword.len = 12#4 ∧
    (writeSym 11 (longestPassword.sym[11] + 4#3)
      (writeSym 10 (longestPassword.sym[10] ^^^ 4#3) longestPassword)).sym =
        #v[7, 7, 1, 6, 7, 7, 7, 7, 3, 0, 7, 3] ∧
    (writeSym 11 0#3 longestPassword).len = 12#4 := by decide
/-- A canonical password, and one with trailing zero symbols (V-DEC-16). -/
theorem witness_ReencodingFixesExactlyCanonicalPasswords : WF2 exampleTable ∧
    ((∃ t, exec .dec scenarioPassword = .next t ∧ t.status = 0b0001#4) ∧
      CanonicalPassword scenarioPassword) ∧
    (∃ t, exec .dec (passwordState exampleTable #v[3, 4, 7, 5, 0, 0, 0, 0, 0, 0, 0, 3] 12) = .next t ∧
      t.status = 0b0001#4) ∧
    ¬ CanonicalPassword (passwordState exampleTable #v[3, 4, 7, 5, 0, 0, 0, 0, 0, 0, 0, 3] 12) :=
  ⟨test_example_table_wf2, ⟨⟨_, rfl, by decide +kernel⟩, by decide⟩, ⟨_, rfl, by decide +kernel⟩,
    by decide⟩
/-- A zero put before the checksum at the last place it can go: lengths 11 and 12. -/
theorem witness_TrailingZeroSymbolKeepsTheOutcome :
    elevenSymbolPassword.table = twelveSymbolPassword.table ∧
    elevenSymbolPassword.len.toNat = (10 : Fin 12).val + 1 ∧
    (11 : Fin 12).val = (10 : Fin 12).val + 1 ∧
    twelveSymbolPassword.len.toNat = (11 : Fin 12).val + 1 ∧
    RightChecksum elevenSymbolPassword.sym elevenSymbolPassword.len.toNat ∧
    (∀ k : Fin 12, k < 10 → twelveSymbolPassword.sym[k] = elevenSymbolPassword.sym[k]) ∧
    twelveSymbolPassword.sym[10] = 0#3 ∧
    twelveSymbolPassword.sym[11] = elevenSymbolPassword.sym[10] := by decide
/-- The premises, and passwords of both forms (V-DEC-16, V-DEC-17) that decode to the record. -/
theorem witness_PasswordsOfOneRecord : WF2 scenarioRecord.table ∧ ValidRecord scenarioRecord.record ∧
    (∃ t, exec .enc scenarioRecord = .next t) ∧ scenarioPassword.table = scenarioRecord.table ∧
    (nextState (exec .dec (passwordState exampleTable #v[3, 4, 7, 5, 0, 0, 0, 0, 0, 0, 0, 3] 12))).map
      (·.record) = some #v[3, 95, 0, 0, 0, 0, 0, 0] ∧
    (nextState (exec .dec (passwordState exampleTable #v[3, 4, 7, 5, 0, 0, 0, 0, 0, 0, 4, 7] 12))).map
      (·.record) = some #v[3, 95, 0, 0, 0, 0, 0, 0] :=
  ⟨test_example_table_wf2, by decide, ⟨_, rfl⟩, rfl, by decide +kernel, by decide +kernel⟩
theorem witness_OutputsAreValid : (∃ t, exec .dec scenarioPassword = .next t ∧ t.status = 0b0001#4) ∧
    ∃ t, exec .enc scenarioRecord = .next t ∧ t.status = 0b0001#4 :=
  ⟨⟨_, rfl, by decide +kernel⟩, _, rfl, by decide +kernel⟩
theorem witness_FailureChangesOnlyTheResult :
    ∃ t, exec .dec State.reset = .next t ∧ t.status ≠ 0b0001#4 := ⟨_, rfl, by decide⟩
theorem witness_FirstCommandAfterReset : ∃ r, performPort .reset scenarioRecord = .next r := ⟨_, rfl⟩
theorem witness_ResultStaysUntilTheNextCommand : Access.wrec 7 255#8 ≠ .reset ∧
    (∀ i, Access.wrec 7 255#8 ≠ .cmd i) ∧
    ∃ t, performAccess (.wrec 7 255#8) scenarioRecord = .next t :=
  ⟨by decide, fun _ h => (nomatch h), _, rfl⟩
/-- One event for each clause. -/
theorem witness_OnlyTheListedEventsChangeEachElement :
    (∃ t, performAccess (.wrec 0 1#8) scenarioRecord = .next t ∧ t.record ≠ scenarioRecord.record) ∧
    (∃ t, performAccess (.wsym 11 1#3) scenarioRecord = .next t ∧ t.sym ≠ scenarioRecord.sym) ∧
    (∃ t, performAccess (.cmd .enc) scenarioRecord = .next t ∧ t.len ≠ scenarioRecord.len ∧
      ¬ SameResult scenarioRecord t) :=
  ⟨⟨_, rfl, by decide⟩, ⟨_, rfl, by decide⟩, ⟨_, rfl, by decide +kernel⟩⟩

/-! ### Witnesses: the invariant -/

theorem witness_EveryStepKeepsALegalResult : LegalResult scenarioRecord ∧
    ∃ t, step (presentAccess (.write 21 1) scenarioRecord) = .next t := ⟨by decide, _, rfl⟩
theorem witness_ResetHasALegalResult : ∃ t, performPort .reset scenarioRecord = .next t := ⟨_, rfl⟩

end Sys2Proof.Tests
end

/-! ## Proofs of the state family: which register each event changes, and which results are shown -/

namespace Sys2Proof.Machine

/-! ### Register numbers: what `RegRead` returns after each update of the state -/

/-- The element a number names is the one whose read carries that number (20_memory.md R29). -/
theorem encodeAccess_of_decodeRead {n : Nat} {a : Access} (h : decodeRead n = .ok a) :
    encodeAccess a = .read n := by
  unfold decodeRead at h
  split_ifs at h <;> cases h <;> simp only [encodeAccess, PortAccess.read.injEq] <;> omega

/-- Two states read alike under a number when they agree on the element it names. -/
theorem registerValue_congr {n : Nat} {s t : State}
    (h : ∀ a, encodeAccess a = .read n → accessValue a t = accessValue a s) :
    registerValue n t = registerValue n s := by
  unfold registerValue
  cases hd : decodeRead n with
  | ok a => exact h a (encodeAccess_of_decodeRead hd)
  | error why => rfl

/-- A number has a value exactly when it names an element that has one. -/
theorem registerValue_eq_some_iff (n : Nat) (s : State) (v : Byte) :
    registerValue n s = some v ↔ ∃ a, decodeRead n = .ok a ∧ accessValue a s = some v := by
  unfold registerValue
  cases decodeRead n <;> simp

/-- An answer to the host is in no register (R31). -/
theorem registerValue_answer (m n : Nat) (v : Byte) (s : State) :
    registerValue m (answer n v s) = registerValue m s :=
  registerValue_congr fun a _ => by cases a <;> rfl

/-- The four result registers are the numbers 22 to 25 (R29). -/
theorem registerValue_withResult {n : Nat} (hn : ¬(22 ≤ n ∧ n ≤ 25)) (s : State) (w : StatusWord)
    (e0 e1 e2 : Byte) : registerValue n (withResult s w e0 e1 e2) = registerValue n s :=
  registerValue_congr fun a ha => by
    cases a with
    | rstat => cases ha; omega
    | rei j => cases ha; omega
    | _ => rfl

/-- An error shows in the four result registers only (60_exceptions.md R112). -/
theorem registerValue_raiseError {n : Nat} (hn : ¬(22 ≤ n ∧ n ≤ 25)) (e : CommandError)
    (s : State) : registerValue n (raiseError e s) = registerValue n s :=
  registerValue_withResult hn s _ _ _ _

/-- Success itself shows in the four result registers only (60_exceptions.md R113). -/
theorem registerValue_succeed {n : Nat} (hn : ¬(22 ≤ n ∧ n ≤ 25)) (s : State) :
    registerValue n (succeed s) = registerValue n s :=
  registerValue_withResult hn s _ _ _ _

/-- The record is the numbers 0 to 7, and `LEVEL` (26) shows it too (R29, 10_state.md R19). -/
theorem registerValue_putRecord {n : Nat} (hn : 8 ≤ n) (hl : n ≠ 26) (s : State)
    (r : Vector Byte 8) : registerValue n (putRecord r s) = registerValue n s :=
  registerValue_congr fun a ha => by
    cases a with
    | rrec f => cases ha; omega
    | rlvl => cases ha; omega
    | _ => rfl

/-- The password is the numbers 8 to 20 (R29). -/
theorem registerValue_putPassword {n : Nat} (hn : ¬(8 ≤ n ∧ n ≤ 20)) (s : State)
    (p : Vector Symbol 12) (len : LenWord) :
    registerValue n (putPassword p len s) = registerValue n s :=
  registerValue_congr fun a ha => by
    cases a with
    | rsym k => cases ha; omega
    | rlen => cases ha; omega
    | _ => rfl

/-- A read of a number that has a value answers the host with it, under that number. -/
theorem performPort_read {n : Nat} {s : State} {v : Byte} (h : registerValue n s = some v) :
    performPort (.read n) s = .next (answer n v s) := by
  obtain ⟨a, hd, hv⟩ := (registerValue_eq_some_iff n s v).mp h
  obtain ⟨m, hm, hp⟩ := performAccess_read a s v hv
  obtain rfl : m = n := by simpa [hm] using encodeAccess_of_decodeRead hd
  rcases performPort_cases (.read m) s with ⟨b, hb, hpb⟩ | ⟨why, hwhy, -⟩
  · obtain rfl : a = b := Except.ok.inj (hd.symm.trans hb)
    exact hpb.trans hp
  · exact absurd (hd.symm.trans hwhy) nofun

/-! ### The errors a command can raise -/

/-- An error with arguments that `DEC` or `ENC` can report: a mismatch has two different symbols, a
bounds error the bound of its field and a value above it, a gating error one of the four gates
(60_exceptions.md R108 to R111). -/
def ReportableError : CommandError → Prop
  | .emptyPassword => True
  | .checksumMismatch computed found => computed ≠ found
  | .fieldOutOfBounds f value max => max = recordBounds[f] ∧ max < value
  | .gatingViolation f gate =>
    (f = 5 ∧ gate = 13#8) ∨ (f = 4 ∧ gate = 10#8) ∨ (f = 3 ∧ gate = 3#8) ∨ (f = 2 ∧ gate = 3#8)

theorem reportable_of_firstBoundsViolation {r : Vector Byte 8} {e : CommandError}
    (h : firstBoundsViolation r = some e) : ReportableError e := by
  obtain ⟨f, -, hf⟩ := List.exists_of_findSome?_eq_some h
  obtain ⟨hlt, rfl⟩ := (boundsViolation_eq_some_iff r f e).mp hf
  exact ⟨rfl, hlt⟩

theorem reportable_of_firstGatingViolation {r : Vector Byte 8} {e : CommandError}
    (h : firstGatingViolation r = some e) : ReportableError e := by
  simp only [firstGatingViolation, williesViolation, enemasViolation, phartsViolation,
    birdsViolation, Option.or_eq_some_iff, gateViolation_eq_some_iff] at h
  rcases h with ⟨-, rfl⟩ | ⟨-, ⟨-, rfl⟩ | ⟨-, ⟨-, rfl⟩ | ⟨-, -, rfl⟩⟩⟩
  · exact .inl ⟨rfl, rfl⟩
  · exact .inr (.inl ⟨rfl, rfl⟩)
  · exact .inr (.inr (.inl ⟨rfl, rfl⟩))
  · exact .inr (.inr (.inr ⟨rfl, rfl⟩))

/-- Every error of the Validator is a bounds error or a gating error with its own arguments. -/
theorem reportable_of_validate {r : Vector Byte 8} {e : CommandError} (h : validate r = some e) :
    ReportableError e := by
  rcases validate_cases r with ⟨d, hb, hv⟩ | ⟨-, hv⟩
  · obtain rfl : d = e := Option.some.inj (hv.symm.trans h)
    exact reportable_of_firstBoundsViolation hb
  · exact reportable_of_firstGatingViolation (hv.symm.trans h)

/-- Every next state of `DEC`: an error raised and nothing else, or a record committed. -/
theorem exec_dec_next {s t : State} (h : exec .dec s = .next t) :
    (∃ e, ReportableError e ∧ t = raiseError e s) ∨ (∃ w, t = succeed (putRecord w s)) := by
  rcases execDec_cases s with ⟨-, he⟩ | ⟨c, -, he⟩ | ⟨-, he⟩
  · exact .inl ⟨.emptyPassword, trivial, (Host.Outcome.next.inj (he.symm.trans h)).symm⟩
  · obtain rfl : decodePassword c s = t := Host.Outcome.next.inj (he.symm.trans h)
    rcases decodePassword_cases c s with ⟨hne, hr⟩ | ⟨-, ⟨e, hv, hr⟩ | ⟨-, hr⟩⟩
    · exact .inl ⟨.checksumMismatch _ _, hne, hr⟩
    · exact .inl ⟨e, reportable_of_validate hv, hr⟩
    · exact .inr ⟨_, hr⟩
  · exact absurd (he.symm.trans h) nofun

/-- Every next state of `ENC`: an error raised and nothing else, or a password committed. -/
theorem exec_enc_next {s t : State} (h : exec .enc s = .next t) :
    (∃ e, ReportableError e ∧ t = raiseError e s) ∨
      (∃ p len, t = succeed (putPassword p len s)) := by
  obtain rfl : encodeRecord s = t := Host.Outcome.next.inj ((exec_enc_eq s).symm.trans h)
  rcases encodeRecord_cases s with ⟨e, hv, hr⟩ | ⟨-, hr⟩
  · exact .inl ⟨e, reportable_of_validate hv, hr⟩
  · exact .inr ⟨_, _, hr⟩

/-! ### Legal results -/

/-- Whether a result is legal is seen in the four result registers alone. -/
theorem LegalResult.of_sameResult {s t : State} (h : LegalResult s) (hst : SameResult s t) :
    LegalResult t := by
  obtain ⟨hs, h0, h1, h2⟩ := hst
  simpa only [LegalResult, NoCommandHasRun, Succeeded, hs, h0, h1, h2] using h

theorem noCommandHasRun_resetBlock (s : State) : NoCommandHasRun (resetBlock s) :=
  ⟨rfl, rfl, rfl, rfl⟩

theorem succeeded_succeed (s : State) : Succeeded (succeed s) := ⟨rfl, rfl, rfl, rfl⟩

/-- A symbol in an `EINFO` register is below 8 (10_state.md R17). -/
theorem setWidth_symbol_lt (x : Symbol) : x.setWidth 8 < 8#8 := by
  have := x.isLt
  simp only [BitVec.lt_def, BitVec.toNat_setWidth, BitVec.toNat_ofNat]
  omega

/-- Different symbols stay different in the `EINFO` registers. -/
theorem setWidth_symbol_injective {x y : Symbol} (h : x.setWidth 8 = y.setWidth 8) : x = y := by
  have hx := x.isLt
  have hy := y.isLt
  have := congrArg BitVec.toNat h
  simp only [BitVec.toNat_setWidth] at this
  exact BitVec.eq_of_toNat_eq (by omega)

/-- Raising an error that a command can report leaves a legal result. -/
theorem legalResult_raiseError {e : CommandError} (h : ReportableError e) (s : State) :
    LegalResult (raiseError e s) := by
  cases e with
  | emptyPassword =>
    rw [raiseError_emptyPassword]
    exact .inr (.inr (.inl ⟨rfl, rfl, rfl, rfl⟩))
  | checksumMismatch computed found =>
    rw [raiseError_checksumMismatch]
    exact .inr (.inr (.inr (.inl ⟨rfl, setWidth_symbol_lt _, setWidth_symbol_lt _,
      fun heq => h (setWidth_symbol_injective heq), rfl⟩)))
  | fieldOutOfBounds f value max =>
    obtain ⟨hmax, hlt⟩ := h
    rw [raiseError_fieldOutOfBounds]
    exact .inr (.inr (.inr (.inr (.inl ⟨rfl, hlt, f,
      Nat.mod_eq_of_lt (f.isLt.trans (by decide)), hmax⟩))))
  | gatingViolation f gate =>
    rw [raiseError_gatingViolation]
    refine .inr (.inr (.inr (.inr (.inr ⟨rfl, rfl, ?_⟩))))
    rcases h with ⟨rfl, rfl⟩ | ⟨rfl, rfl⟩ | ⟨rfl, rfl⟩ | ⟨rfl, rfl⟩
    · exact .inl ⟨rfl, rfl⟩
    · exact .inr (.inl ⟨rfl, rfl⟩)
    · exact .inr (.inr (.inl ⟨rfl, rfl⟩))
    · exact .inr (.inr (.inr ⟨rfl, rfl⟩))

/-- A command that ends shows a legal result, whatever result stood there before. -/
theorem legalResult_of_exec {i : Instr} {s t : State} (h : exec i s = .next t) :
    LegalResult t := by
  cases i with
  | dec =>
    rcases exec_dec_next h with ⟨e, he, rfl⟩ | ⟨w, rfl⟩
    · exact legalResult_raiseError he s
    · exact .inr (.inl (succeeded_succeed _))
  | enc =>
    rcases exec_enc_next h with ⟨e, he, rfl⟩ | ⟨p, len, rfl⟩
    · exact legalResult_raiseError he s
    · exact .inr (.inl (succeeded_succeed _))

/-! ### The obligations -/

/-- Settles O54. -/
theorem resetHasALegalResult : Obligations.ResetHasALegalResult := by
  have hreset : NoCommandHasRun State.reset := ⟨rfl, rfl, rfl, rfl⟩
  refine ⟨⟨hreset, .inl hreset⟩, fun s t h => ?_⟩
  obtain rfl : resetBlock s = t := Host.Outcome.next.inj h
  exact ⟨noCommandHasRun_resetBlock s, .inl (noCommandHasRun_resetBlock s)⟩

/-- Settles O6. -/
theorem readsAndIdleStepsChangeNoRegister : Obligations.ReadsAndIdleStepsChangeNoRegister := by
  refine ⟨fun s hs => ?_, fun s n v h => ⟨performPort_read h, fun m => registerValue_answer m n v s⟩⟩
  rcases step_cases s with ⟨-, hstep⟩ | ⟨p, rest, hp, -⟩
  · exact hstep
  · exact absurd (hs.symm.trans hp) nofun

/-- Settles O31, by the two ways in which `DEC` ends. -/
theorem decodeFrame : Obligations.DecodeFrame := by
  intro s t h
  rcases exec_dec_next h with ⟨e, -, rfl⟩ | ⟨w, rfl⟩
  · exact ⟨fun n _ hn => registerValue_raiseError (by omega) e s,
      fun _ n hn => registerValue_raiseError hn e s, rfl, rfl⟩
  · refine ⟨fun n h8 hn => ?_, fun hne => absurd rfl hne, rfl, rfl⟩
    rw [registerValue_succeed (by omega), registerValue_putRecord h8 (by omega)]

/-- Settles O35, by the two ways in which `ENC` ends. -/
theorem encodeFrame : Obligations.EncodeFrame := by
  intro s t h
  rcases exec_enc_next h with ⟨e, -, rfl⟩ | ⟨p, len, rfl⟩
  · exact ⟨fun n _ hn => registerValue_raiseError hn e s,
      fun _ n hn => registerValue_raiseError hn e s, rfl, rfl⟩
  · refine ⟨fun n hp hn => ?_, fun hne => absurd rfl hne, rfl, rfl⟩
    rw [registerValue_succeed hn, registerValue_putPassword hp]

/-- Settles O51, by what each access does. A command changes an operand only when it succeeds; every
other access is one update, and the laws of the state say which fields it leaves. -/
theorem onlyTheListedEventsChangeEachElement :
    Obligations.OnlyTheListedEventsChangeEachElement := by
  intro a s t h
  rcases performAccess_cases a s with ⟨f, v, rfl, he⟩ | ⟨k, v, rfl, he⟩ | ⟨n, rfl, he⟩ |
    ⟨i, rfl, he⟩ | ⟨n, v, -, he⟩ | ⟨rfl, he⟩ <;> rw [he] at h
  · obtain rfl : writeRec f v s = t := Host.Outcome.next.inj h
    simp
  · obtain rfl : writeSym k v s = t := Host.Outcome.next.inj h
    simp
  · obtain rfl : writeLen n s = t := Host.Outcome.next.inj h
    simp
  · cases i with
    | dec => rcases exec_dec_next h with ⟨e, -, rfl⟩ | ⟨w, rfl⟩ <;> simp
    | enc => rcases exec_enc_next h with ⟨e, -, rfl⟩ | ⟨p, len, rfl⟩ <;> simp
  · obtain rfl : answer n v s = t := Host.Outcome.next.inj h
    simp
  · obtain rfl : resetBlock s = t := Host.Outcome.next.inj h
    simp

/-- Settles O53: only a command or the reset event changes the result registers (O51), and each of
them leaves a legal result whatever stood there before. -/
theorem everyStepKeepsALegalResult : Obligations.EveryStepKeepsALegalResult := by
  intro s t hs h
  rcases step_cases s with ⟨-, hstep⟩ | ⟨p, rest, -, hstep⟩ <;> rw [hstep] at h
  · exact Host.Outcome.next.inj h ▸ hs
  · rcases performPort_cases p (putPending rest s) with ⟨a, -, hp⟩ | ⟨why, -, hp⟩ <;> rw [hp] at h
    · obtain ⟨-, -, -, hresult, -⟩ := onlyTheListedEventsChangeEachElement a _ t h
      by_cases hsame : SameResult (putPending rest s) t
      · exact LegalResult.of_sameResult (s := putPending rest s) hs hsame
      · rcases hresult hsame with ⟨i, rfl⟩ | rfl
        · exact legalResult_of_exec h
        · exact Host.Outcome.next.inj h ▸ .inl (noCommandHasRun_resetBlock _)
    · exact absurd h nofun

end Sys2Proof.Machine

/-! ## Proofs of the memory family: the register map, single accesses and host programs -/

namespace Sys2Proof.Machine

/-! ### The decoder and the encoder of port accesses are inverse (30_encoding.md R61) -/

/-- A write decodes only to the access it is the encoding of (20_memory.md R29, R32). -/
theorem encodeAccess_of_decodeWrite {n v : Nat} {a : Access} (h : decodeWrite n v = .ok a) :
    encodeAccess a = .write n v := by
  unfold decodeWrite decodeInstr at h
  split_ifs at h <;> cases h <;>
    simp only [encodeAccess, encodeInstr, cmdNumber, PortAccess.write.injEq, BitVec.toNat_ofNat,
      true_and] <;> omega

/-- A port access decodes only to the access it is the encoding of. -/
theorem encodeAccess_of_decodeAccess {p : PortAccess} {a : Access} (h : decodeAccess p = .ok a) :
    encodeAccess a = p := by
  cases p with
  | read n => exact encodeAccess_of_decodeRead h
  | write n v => exact encodeAccess_of_decodeWrite h
  | reset => cases h; rfl

/-- Every access is read back from its encoding. -/
@[simp] theorem decodeAccess_encodeAccess (a : Access) : decodeAccess (encodeAccess a) = .ok a := by
  cases a with
  | wrec f v => simp [encodeAccess, decodeAccess, decodeWrite, v.isLt]
  | wsym k v =>
    have hk : 8 + k.val < 20 := by omega
    simp [encodeAccess, decodeAccess, decodeWrite, hk, v.isLt]
  | wlen n => simp [encodeAccess, decodeAccess, decodeWrite, n.isLt]
  | cmd i => cases i <;> rfl
  | rrec f => simp [encodeAccess, decodeAccess, decodeRead]
  | rsym k =>
    have hk : 8 + k.val < 20 := by omega
    simp [encodeAccess, decodeAccess, decodeRead, hk]
  | rei j => fin_cases j <;> rfl
  | rtab i =>
    change decodeRead (32 + i.val) = _
    rw [decodeRead, dif_neg (by omega), dif_neg (by omega), if_neg (by omega), if_neg (by omega),
      if_neg (by omega), dif_neg (by omega), if_neg (by omega), if_neg (by omega),
      dif_pos (by omega)]
    simp
  | _ => rfl

/-! ### The register map allows exactly the encodings of accesses (20_memory.md R29) -/

/-- The readable numbers as an arithmetic condition. -/
theorem readableNumber_iff (n : Nat) :
    readableNumber n = true ↔ n < 64 ∧ n ≠ 21 ∧ (n < 27 ∨ 31 < n) := by
  simp only [readableNumber, Bool.and_eq_true, decide_eq_true_eq, bne_iff_ne, Bool.not_eq_true',
    Bool.and_eq_false_iff, decide_eq_false_iff_not]
  omega

/-- The map allows every access as it is encoded. -/
theorem wellFormed_encodeAccess (a : Access) : (encodeAccess a).wellFormed = true := by
  cases a with
  | wrec f v => simp [encodeAccess, PortAccess.wellFormed, writeWidth, v.isLt]
  | wsym k v =>
    have hk : 8 + k.val < 20 := by omega
    simpa [encodeAccess, PortAccess.wellFormed, writeWidth, hk] using v.isLt
  | wlen n => simpa [encodeAccess, PortAccess.wellFormed, writeWidth] using n.isLt
  | cmd i => cases i <;> rfl
  | rrec f => exact (readableNumber_iff _).mpr (by omega)
  | rsym k => exact (readableNumber_iff _).mpr (by omega)
  | rei j => exact (readableNumber_iff _).mpr (by omega)
  | rtab i => exact (readableNumber_iff _).mpr (by omega)
  | _ => rfl

/-- The decoder rejects no read of a readable number: each rejection is a hole in the map. -/
theorem exists_decodeRead_eq_ok {n : Nat} (h : readableNumber n = true) :
    ∃ a, decodeRead n = .ok a := by
  cases hd : decodeRead n with
  | ok a => exact ⟨a, rfl⟩
  | error why =>
    rw [readableNumber_iff] at h
    unfold decodeRead at hd
    split_ifs at hd <;> cases hd <;> omega

/-- A number with a write port of `w` bits takes every value of `w` bits. -/
theorem exists_decodeWrite_eq_ok {n v w : Nat} (hw : writeWidth n = some w) (hv : v < 2 ^ w) :
    ∃ a, decodeWrite n v = .ok a := by
  unfold writeWidth at hw
  split_ifs at hw with h8 h20 hlen hcmd <;> cases hw
  · exact ⟨_, by rw [decodeWrite, dif_pos h8, if_pos hv]⟩
  · exact ⟨_, by rw [decodeWrite, dif_neg h8, dif_pos h20, if_pos hv]⟩
  · exact ⟨_, by rw [decodeWrite, dif_neg h8, dif_neg h20, if_pos hlen, if_pos hv]⟩
  · subst hcmd
    interval_cases v <;> exact ⟨_, rfl⟩

/-- Settles O2: an accepted access is an encoding, and the map allows every encoding; the other way,
the decoder leaves out no number and no value of the map. -/
theorem decoderAcceptsExactlyTheRegisterMap : Obligations.DecoderAcceptsExactlyTheRegisterMap := by
  intro p
  constructor
  · rintro ⟨a, ha⟩
    rw [← encodeAccess_of_decodeAccess ha]
    exact wellFormed_encodeAccess a
  · intro h
    cases p with
    | read n => exact exists_decodeRead_eq_ok h
    | write n v =>
      cases hw : writeWidth n with
      | none => simp [PortAccess.wellFormed, hw] at h
      | some w => exact exists_decodeWrite_eq_ok hw (by simpa [PortAccess.wellFormed, hw] using h)
    | reset => exact ⟨.reset, rfl⟩

/-! ### A port access is what the decoder says of it -/

/-- What the decoder accepts is performed. -/
theorem performPort_of_ok {p : PortAccess} {a : Access} (h : decodeAccess p = .ok a) (s : State) :
    performPort p s = performAccess a s := by
  simp only [performPort, h]

/-- What the decoder rejects is refused, for the decoder's reason (log 6). -/
theorem performPort_of_error {p : PortAccess} {why : AccessReject}
    (h : decodeAccess p = .error why) (s : State) :
    performPort p s = .refused (.access why) := by
  simp only [performPort, h]

/-- An access presented as it is encoded is performed. -/
theorem performPort_encodeAccess (a : Access) (s : State) :
    performPort (encodeAccess a) s = performAccess a s :=
  performPort_of_ok (decodeAccess_encodeAccess a) s

/-- Settles O4: `performAccess` runs a command by `exec`. -/
theorem stepPerformsTheDecodedAccess : Obligations.StepPerformsTheDecodedAccess := by
  intro s p rest hp
  have hstep : ∀ a, decodeAccess p = .ok a → step s = performAccess a (putPending rest s) :=
    fun a ha => (step_of_pending hp).trans (performPort_of_ok ha _)
  exact ⟨hstep, fun i hi => hstep (.cmd i) hi⟩

/-- The read-only numbers take no write (20_memory.md R33). -/
theorem decodeWrite_readOnly {n : Nat} (h : (22 ≤ n ∧ n ≤ 26) ∨ (32 ≤ n ∧ n ≤ 63)) (v : Nat) :
    decodeWrite n v = .error .writeOfReadOnly := by
  rw [decodeWrite, dif_neg (by omega), dif_neg (by omega), if_neg (by omega), if_neg (by omega)]
  rcases h with h | h
  · rw [if_pos (by omega)]
  · rw [if_neg (by omega), if_neg (by omega), if_pos (by omega)]

/-- The reserved numbers take no write (R33). -/
theorem decodeWrite_reserved {n : Nat} (h : 27 ≤ n ∧ n ≤ 31) (v : Nat) :
    decodeWrite n v = .error .reservedNumber := by
  rw [decodeWrite, dif_neg (by omega), dif_neg (by omega), if_neg (by omega), if_neg (by omega),
    if_neg (by omega), if_pos (by omega)]

/-- The reserved numbers name no element (R33). -/
theorem decodeRead_reserved {n : Nat} (h : 27 ≤ n ∧ n ≤ 31) :
    decodeRead n = .error .reservedNumber := by
  rw [decodeRead, dif_neg (by omega), dif_neg (by omega), if_neg (by omega), if_neg (by omega),
    if_neg (by omega), dif_neg (by omega), if_neg (by omega), if_pos (by omega)]

/-- Settles O8. -/
theorem meaninglessAccessesAreRefused : Obligations.MeaninglessAccessesAreRefused := by
  intro s n v
  refine ⟨?_, fun hn => ?_, fun hn => ⟨?_, ?_⟩⟩
  · rintro rfl
    rfl
  · exact performPort_of_error (p := .write n v) (decodeWrite_readOnly hn v) s
  · exact performPort_of_error (p := .read n) (decodeRead_reserved hn) s
  · exact performPort_of_error (p := .write n v) (decodeWrite_reserved hn v) s

/-! ### What a register number reads -/

/-- A number reads the element whose read access it encodes. -/
theorem registerValue_of_encodeAccess {n : Nat} {a : Access} (h : encodeAccess a = .read n)
    (s : State) : registerValue n s = accessValue a s := by
  have hd : decodeAccess (.read n) = .ok a := h ▸ decodeAccess_encodeAccess a
  simp only [registerValue, show decodeRead n = .ok a from hd]

/-- `REC[f]` is number `f`. -/
theorem registerValue_rec (f : Fin 8) (s : State) : registerValue f.val s = some s.record[f] :=
  registerValue_of_encodeAccess (a := .rrec f) rfl s

/-- `SYM[k]` is number `8 + k`. -/
theorem registerValue_sym (k : Fin 12) (s : State) :
    registerValue (8 + k.val) s = some (s.sym[k].setWidth 8) :=
  registerValue_of_encodeAccess (a := .rsym k) rfl s

/-- `TABLE[i]` is number `32 + i`. -/
theorem registerValue_table (i : Fin 32) (s : State) :
    registerValue (32 + i.val) s = some (s.table[i].setWidth 8) :=
  registerValue_of_encodeAccess (a := .rtab i) rfl s

/-- Settles O9: the single registers are closed numbers, which the decoder evaluates. -/
theorem registerNumbersNameTheirElements : Obligations.RegisterNumbersNameTheirElements :=
  fun s => ⟨fun f => registerValue_rec f s, fun k => registerValue_sym k s, rfl, rfl, rfl, rfl, rfl,
    rfl, fun i => registerValue_table i s⟩

/-! ### What a write of one element leaves as it was (20_memory.md R32) -/

/-- `REC[f]` shows at number `f`, and `REC[0]` at `LEVEL` (26) too (10_state.md R19). -/
theorem registerValue_writeRec_of_ne {n : Nat} {f : Fin 8} (hn : n ≠ f.val)
    (hl : ¬(n = 26 ∧ f = 0)) (v : Byte) (s : State) :
    registerValue n (writeRec f v s) = registerValue n s :=
  registerValue_congr fun a ha => by
    cases a with
    | rrec g =>
      cases ha
      simp [accessValue, Vector.getElem_set_ne _ _ hn.symm]
    | rlvl =>
      cases ha
      have hf : f.val ≠ 0 := fun h => hl ⟨rfl, Fin.ext h⟩
      simp [accessValue, readLevel, Vector.getElem_set_ne _ _ hf]
    | _ => rfl

/-- `SYM[k]` shows at number `8 + k` alone. -/
theorem registerValue_writeSym_of_ne {n : Nat} {k : Fin 12} (hn : n ≠ 8 + k.val) (v : Symbol)
    (s : State) : registerValue n (writeSym k v s) = registerValue n s :=
  registerValue_congr fun a ha => by
    cases a with
    | rsym j =>
      cases ha
      have hk : k.val ≠ j.val := by omega
      simp [accessValue, Vector.getElem_set_ne _ _ hk]
    | _ => rfl

/-- `LEN` shows at number 20 alone. -/
theorem registerValue_writeLen_of_ne {n : Nat} (hn : n ≠ 20) (len : LenWord) (s : State) :
    registerValue n (writeLen len s) = registerValue n s :=
  registerValue_congr fun a ha => by
    cases a with
    | rlen => cases ha; exact absurd rfl hn
    | _ => rfl

/-- Settles O7: each write is the encoding of an access that is one update of the state. -/
theorem writesSetOneElement : Obligations.WritesSetOneElement := by
  refine ⟨fun s f v => ⟨writeRec f v s, performPort_encodeAccess (.wrec f v) s, rfl, ?_,
      fun n hn hl => registerValue_writeRec_of_ne hn hl v s⟩,
    fun s k v => ⟨writeSym k v s, performPort_encodeAccess (.wsym k v) s, rfl, ?_,
      fun n hn => registerValue_writeSym_of_ne hn v s⟩,
    fun s v => ⟨writeLen v s, performPort_encodeAccess (.wlen v) s, rfl, rfl,
      fun n hn => registerValue_writeLen_of_ne hn v s⟩⟩
  · simp [registerValue_rec]
  · simp [registerValue_sym]

/-! ### The accesses still to come are no operand of the one performed -/

/-- The accesses `ps` stand in the queue of the next state, whatever stood there. -/
def withPending (ps : List PortAccess) (o : Host.Outcome State Fault Refusal) :
    Host.Outcome State Fault Refusal :=
  andThen o fun t => .next (putPending ps t)

theorem commitRecord_putPending (w : Vector Byte 8) (ps : List PortAccess) (s : State) :
    commitRecord w (putPending ps s) = putPending ps (commitRecord w s) := by
  unfold commitRecord
  cases validate w <;> rfl

theorem decodePassword_putPending (c : Fin 12) (ps : List PortAccess) (s : State) :
    decodePassword c (putPending ps s) = putPending ps (decodePassword c s) := by
  simp only [decodePassword, putPending_sym, putPending_table, commitRecord_putPending]
  split_ifs <;> rfl

theorem encodeRecord_putPending (ps : List PortAccess) (s : State) :
    encodeRecord (putPending ps s) = putPending ps (encodeRecord s) := by
  simp only [encodeRecord, putPending_record, putPending_table]
  cases validate s.record <;> rfl

/-- A command neither reads nor changes the queue. -/
theorem exec_putPending (i : Instr) (ps : List PortAccess) (s : State) :
    exec i (putPending ps s) = withPending ps (exec i s) := by
  cases i with
  | dec =>
    simp only [exec, execDec, putPending_len, decodePassword_putPending]
    split_ifs
    · rfl
    · cases checksumSlot s.len <;> rfl
  | enc => exact congrArg Host.Outcome.next (encodeRecord_putPending ps s)

/-- An access neither reads nor changes the queue. -/
theorem performAccess_putPending (a : Access) (ps : List PortAccess) (s : State) :
    performAccess a (putPending ps s) = withPending ps (performAccess a s) := by
  cases a with
  | cmd i => exact exec_putPending i ps s
  | rei j => fin_cases j <;> rfl
  | _ => rfl

/-! ### A host program, one step for each access (20_memory.md R41) -/

theorem andThen_withPending (ps : List PortAccess) (o : Host.Outcome State Fault Refusal)
    (k : State → Host.Outcome State Fault Refusal) :
    andThen (withPending ps o) k = andThen o fun t => k (putPending ps t) := by
  cases o <;> rfl

/-- With the encoding of an access first in the queue, a run performs that access and goes on. -/
theorem core_run_succ_putPending (k : Nat) (a : Access) (ps : List PortAccess) (s : State) :
    Sys2Proof.core.run (k + 1) (putPending (encodeAccess a :: ps) s) =
      andThen (performAccess a s) fun t => Sys2Proof.core.run k (putPending ps t) := by
  have hstep : step (putPending (encodeAccess a :: ps) s) = withPending ps (performAccess a s) :=
    (step_of_pending rfl).trans
      ((performPort_encodeAccess a (putPending ps s)).trans (performAccess_putPending a ps s))
  rw [core_run_succ, hstep]
  exact andThen_withPending ps _ _

/-- A host program runs its first access and then the others, whatever stands in the queue. -/
theorem runAccesses_cons_putPending (a : Access) (as : List Access) (ps : List PortAccess)
    (s : State) :
    runAccesses (a :: as) (putPending ps s) =
      andThen (performAccess a s) fun t => runAccesses as (putPending ps t) := by
  rw [runAccesses, performAccess_putPending, andThen_withPending]

/-- Settles O12, by induction on the program: its first access is the first step, and the accesses
behind it only wait in the queue meanwhile. -/
theorem stepsFollowProgramOrder : Obligations.StepsFollowProgramOrder := by
  intro as rest
  induction as with
  | nil => exact fun s => core_run_zero _
  | cons a as ih =>
    intro s
    rw [runAccesses_cons_putPending, ← funext ih]
    exact core_run_succ_putPending as.length a (as.map encodeAccess ++ rest) s

end Sys2Proof.Machine

/-! ## Proofs of the encoding family: encodings, command words, the assemblies and the host's calls -/

namespace Sys2Proof.Machine

/-! ### Encodings and command words (30_encoding.md R57, R61) -/

/-- Settles O1, by the two directions proved for the register map. -/
theorem accessEncodingRoundTrips : Obligations.AccessEncodingRoundTrips :=
  ⟨decodeAccess_encodeAccess, fun _ _ h => encodeAccess_of_decodeAccess h⟩

/-- A table word decodes to a command exactly when it is that command's word, at every word length. -/
theorem decodeTableWord_eq_some_iff (nbits w : Nat) (i : Instr) :
    decodeTableWord nbits w = some i ↔ w = encodeInstr i := by
  constructor
  · intro h
    unfold decodeTableWord at h
    split at h
    · rename_i j hj
      obtain rfl : j = i := Option.some.inj h
      have hw := encodeAccess_of_decodeAccess hj
      exact (PortAccess.write.inj hw).2.symm
    · exact absurd h nofun
  · rintro rfl
    cases i <;> rfl

/-- Settles O3: a wider word is neither of the two commands' words. -/
theorem commandWordsDecode : Obligations.CommandWordsDecode := by
  refine ⟨rfl, rfl, (decodeTableWord_eq_some_iff 8 0 .dec).mpr rfl,
    (decodeTableWord_eq_some_iff 8 1 .enc).mpr rfl, fun w hw => ?_⟩
  refine Option.eq_none_iff_forall_ne_some.mpr fun i hi => ?_
  have hword : w = encodeInstr i := (decodeTableWord_eq_some_iff 8 w i).mp hi
  cases i <;> simp only [encodeInstr] at hword <;> omega

/-- Settles O5: the word is the command's own, and the step performs the `CMD` write presented. -/
theorem presentedCommandWordRuns : Obligations.PresentedCommandWordRuns := by
  intro s nbits w i h
  obtain rfl : w = encodeInstr i := (decodeTableWord_eq_some_iff nbits w i).mp h
  rw [withFetchWord_eq, step_presentAccess]
  exact performPort_encodeAccess (.cmd i) s

/-! ### The two loops (30_encoding.md R54) -/

/-- The loop of `DEC` assembles the record: from all zero, it ORs in the bit each entry names. -/
theorem accumulate_assembles (table : Vector TableEntry 32) (sym : Vector Symbol 12) (c : Fin 12) :
    AssembledRecord table sym (c.val + 1) (accumulate table sym c) := by
  intro f b
  have hloop := foldl_or_iff (fun w : Vector Byte 8 => w[f].getLsbD b.val = true)
    (fun i : Fin 32 => entryField table[i] = f ∧ entryShift table[i] = b) (payloadBit sym c)
    (fun w i => setRecordBit w table[i]) (fun w i => setRecordBit_getLsbD w table[i] f b)
    payloadIndices (Vector.replicate 8 0#8)
  have hzero : (Vector.replicate 8 0#8)[f].getLsbD b.val = false := by simp
  refine hloop.trans ?_
  simp only [hzero, Bool.false_eq_true, false_or, payloadIndices, List.mem_finRange, true_and,
    payloadBit_eq_true_iff]
  exact exists_congr fun i => and_rotate

/-- The loop of `ENC` assembles the payload: from all zero, it ORs in each index whose record bit
is 1. -/
theorem scatter_assembles (table : Vector TableEntry 32) (r : Vector Byte 8) :
    AssembledPayload table r (scatter table r) := by
  intro k b
  have hloop := foldl_or_iff (fun p : Vector Symbol 12 => p[k].getLsbD b.val = true)
    (fun i : Fin 32 => i.val / 3 = k.val ∧ i.val % 3 = b.val) (fun i => recordBit r table[i])
    setPayloadBit (fun p i => setPayloadBit_getLsbD p i k b)
    payloadIndices (Vector.replicate 12 0#3)
  have hzero : (Vector.replicate 12 0#3)[k].getLsbD b.val = false := by simp
  refine hloop.trans ?_
  simp only [hzero, Bool.false_eq_true, false_or, payloadIndices, List.mem_finRange, true_and,
    recordBit]
  exact exists_congr fun i => and_rotate

/-- Settles O23, by the two loops. -/
theorem loopsComputeTheAssemblies : Obligations.LoopsComputeTheAssemblies :=
  ⟨accumulate_assembles, scatter_assembles⟩

/-! ### Host programs in parts -/

/-- A program in two parts runs the second on what the first leaves. -/
theorem runAccesses_append (as bs : List Access) (s : State) :
    runAccesses (as ++ bs) s = andThen (runAccesses as s) (runAccesses bs) := by
  induction as generalizing s with
  | nil => rfl
  | cons a as ih =>
    simp only [List.cons_append, runAccesses]
    cases performAccess a s with
    | next t => exact ih t
    | fault r => rfl
    | refused r => rfl

/-! ### Loads: a list of writes sets the slots it names (30_encoding.md R62) -/

/-- `v` with each slot `k` of a list set to `g k`, in turn. -/
def setSlots {α : Type} {n : Nat} (g : Fin n → α) : List (Fin n) → Vector α n → Vector α n
  | [], v => v
  | k :: l, v => setSlots g l (v.set k (g k))

/-- The slots of the list take the values meant for them, and the others stay. -/
theorem getElem_setSlots {α : Type} {n : Nat} (g : Fin n → α) (l : List (Fin n)) (v : Vector α n)
    (j : Fin n) : (setSlots g l v)[j] = if j ∈ l then g j else v[j] := by
  induction l generalizing v with
  | nil => simp [setSlots]
  | cons k l ih =>
    rw [setSlots, ih]
    by_cases hk : k = j
    · subst hk
      simp
    · have hne : k.val ≠ j.val := fun h => hk (Fin.ext h)
      simp [Vector.getElem_set_ne, hne, Ne.symm hk]

/-- `WSYM` of the slots in a list sets those slots, and nothing else. -/
theorem runAccesses_wsym (g : Fin 12 → Symbol) (l : List (Fin 12)) (s : State) :
    runAccesses (l.map fun k => .wsym k (g k)) s =
      .next { s with sym := setSlots g l s.sym } := by
  induction l generalizing s with
  | nil => rfl
  | cons k l ih => exact ih (writeSym k (g k) s)

/-- `WREC` of the fields in a list sets those fields, and nothing else. -/
theorem runAccesses_wrec (g : Fin 8 → Byte) (l : List (Fin 8)) (s : State) :
    runAccesses (l.map fun f => .wrec f (g f)) s =
      .next (putRecord (setSlots g l s.record) s) := by
  induction l generalizing s with
  | nil => rfl
  | cons f l ih => exact ih (writeRec f (g f) s)

/-- The slots that `LDPW` of `n` symbols writes are those below `n`. -/
theorem mem_map_castLE_finRange {n m : Nat} (h : n ≤ m) (k : Fin m) :
    k ∈ (List.finRange n).map (Fin.castLE h) ↔ k.val < n := by
  simp only [List.mem_map, List.mem_finRange, true_and]
  exact ⟨fun ⟨i, hi⟩ => hi ▸ i.isLt, fun hk => ⟨⟨k.val, hk⟩, rfl⟩⟩

/-- `LDPW` writes to each slot below `n` the symbol of that place, and then the length. -/
theorem ldpw_eq (p : List Symbol) (h : p.length ≤ 12) (d : Symbol) :
    ldpw p h = (((List.finRange p.length).map (Fin.castLE h)).map
      fun k => .wsym k (p.getD k.val d)) ++ [.wlen (BitVec.ofNat 4 p.length)] := by
  simp [ldpw, Fin.castLE]

/-- `LDPW` replaces the slots below `n` and sets `LEN` to `n`. -/
theorem runAccesses_ldpw (s : State) (p : List Symbol) (h : p.length ≤ 12) :
    ∃ v : Vector Symbol 12,
      runAccesses (ldpw p h) s = .next (putPassword v (BitVec.ofNat 4 p.length) s) ∧
      ∀ k : Fin 12, v[k] = p.getD k.val s.sym[k] := by
  refine ⟨setSlots (fun k => p.getD k.val 0#3) ((List.finRange p.length).map (Fin.castLE h)) s.sym,
    ?_, fun k => ?_⟩
  · rw [ldpw_eq p h 0#3, runAccesses_append, runAccesses_wsym]
    rfl
  · simp only [getElem_setSlots, mem_map_castLE_finRange]
    by_cases hk : k.val < p.length <;> simp [hk]

/-- `LDREC` replaces the record: it writes every field. -/
theorem runAccesses_ldrec (s : State) (r : Vector Byte 8) :
    runAccesses (ldrec r) s = .next (putRecord r s) := by
  have hr : setSlots (fun f => r[f]) (List.finRange 8) s.record = r :=
    Vector.ext fun f hf => by
      simpa using getElem_setSlots (fun f => r[f]) (List.finRange 8) s.record ⟨f, hf⟩
  rw [ldrec, runAccesses_wrec (fun f => r[f]), hr]

/-- Settles O15, by what each of the two loads leaves. -/
theorem loadsPlaceTheirOperands : Obligations.LoadsPlaceTheirOperands :=
  ⟨runAccesses_ldpw, runAccesses_ldrec⟩

/-! ### Reads: a list of reads answers the host in turn (20_memory.md R31) -/

/-- The host's answers replaced, and nothing else (log 2). -/
def putAnswers (xs : List Answer) (s : State) : State := { s with answers := xs }

theorem answer_eq_putAnswers (n : Nat) (v : Byte) (s : State) :
    answer n v s = putAnswers (⟨n, v⟩ :: s.answers) s := rfl

/-- In state `s` the access `a` is a read that answers `x`. -/
def ReadsAs (a : Access) (x : Answer) (s : State) : Prop :=
  encodeAccess a = .read x.number ∧ accessValue a s = some x.value

/-- What a read answers does not depend on what was answered before. -/
theorem readsAs_putAnswers {a : Access} {x : Answer} {s : State} (h : ReadsAs a x s)
    (xs : List Answer) : ReadsAs a x (putAnswers xs s) := by
  obtain ⟨hnum, hval⟩ := h
  have hsame : accessValue a (putAnswers xs s) = accessValue a s := by cases a <;> rfl
  exact ⟨hnum, hsame.trans hval⟩

/-- A read adds its answer, and does nothing else. -/
theorem performAccess_of_readsAs {a : Access} {x : Answer} {s : State} (h : ReadsAs a x s) :
    performAccess a s = .next (putAnswers (x :: s.answers) s) := by
  obtain ⟨hnum, hval⟩ := h
  obtain ⟨n, hn, hp⟩ := performAccess_read a s x.value hval
  obtain rfl : x.number = n := PortAccess.read.inj (hnum.symm.trans hn)
  exact hp

/-- A list of reads adds their answers, the newest first, and does nothing else. -/
theorem runAccesses_map_of_readsAs {ι : Type} {acc : ι → Access} {ans : ι → Answer} {s : State}
    (h : ∀ i, ReadsAs (acc i) (ans i) s) (l : List ι) :
    runAccesses (l.map acc) s = .next (putAnswers ((l.map ans).reverse ++ s.answers) s) := by
  induction l generalizing s with
  | nil => rfl
  | cons i l ih =>
    rw [List.map_cons, runAccesses, performAccess_of_readsAs (h i)]
    refine (ih fun j => readsAs_putAnswers (h j) _).trans ?_
    simp [putAnswers]

/-- The eight reads of the record answer its fields in order. -/
theorem runAccesses_readRecord (t : State) :
    runAccesses readRecord t = .next (putAnswers
      (((List.finRange 8).map fun f => (⟨f.val, t.record[f]⟩ : Answer)).reverse ++ t.answers) t) :=
  runAccesses_map_of_readsAs (fun _ => ⟨rfl, rfl⟩) _

/-- The reads of a password of length `LEN` answer `LEN` and then the symbols below it. -/
theorem runAccesses_readPassword (t : State) :
    runAccesses (readPassword t.len) t = .next (putAnswers
      ((((List.finRange 12).filter fun k => k.val < t.len.toNat).map
          fun k => (⟨8 + k.val, t.sym[k].setWidth 8⟩ : Answer)).reverse
        ++ ⟨20, t.len.setWidth 8⟩ :: t.answers) t) :=
  runAccesses_map_of_readsAs (s := answer 20 (t.len.setWidth 8) t) (fun _ => ⟨rfl, rfl⟩) _

/-- The reads of the error arguments answer `EINFO0..2` in order. -/
theorem runAccesses_readErrorInfo (t : State) :
    runAccesses readErrorInfo t =
      .next (putAnswers ([⟨25, t.einfo2⟩, ⟨24, t.einfo1⟩, ⟨23, t.einfo0⟩] ++ t.answers) t) := rfl

/-! ### Calls: load, command, `RSTAT`, and the reads that `OK` selects (30_encoding.md R62) -/

/-- In a legal result the bit `OK` is set by the `STATUS` word of success alone. -/
theorem statusOk_iff_of_legalResult {t : State} (h : LegalResult t) :
    statusOk t.status = true ↔ t.status = 0b0001#4 := by
  rcases h with ⟨hs, -⟩ | ⟨hs, -⟩ | ⟨hs, -⟩ | ⟨hs, -⟩ | ⟨hs, -⟩ | ⟨hs, -⟩ <;> rw [hs] <;> decide

/-- A command answers the host nothing. -/
theorem answers_of_exec {i : Instr} {s t : State} (h : exec i s = .next t) :
    t.answers = s.answers := by
  cases i with
  | dec => obtain ⟨-, -, -, hanswers⟩ := decodeFrame s t h; exact hanswers
  | enc => obtain ⟨-, -, -, hanswers⟩ := encodeFrame s t h; exact hanswers

/-- The reads that follow `RSTAT` in a call: `reads`, which may look at the state, when `OK = 1`, and
the error arguments when `OK = 0`. -/
def resultReads (reads : State → List Access) (t : State) : List Access :=
  if statusOk t.status then reads t else readErrorInfo

theorem decodeCall_eq (p : List Symbol) (h : p.length ≤ 12) (s : State) :
    decodeCall p h s = andThen (runAccesses (ldpw p h ++ [.cmd .dec, .rstat]) s) fun t =>
      runAccesses (resultReads (fun _ => readRecord) t) t := rfl

theorem encodeCall_eq (r : Vector Byte 8) (s : State) :
    encodeCall r s = andThen (runAccesses (ldrec r ++ [.cmd .enc, .rstat]) s) fun t =>
      runAccesses (resultReads (fun t => readPassword t.len) t) t := rfl

/-- A call whose load leads to `loaded` and whose command leads from there to `t` answers `STATUS` and
then what the reads answer of `t`, and leaves the rest of `t` as it is. -/
theorem call_eq {load : List Access} {i : Instr} {s loaded t : State}
    {reads : State → List Access} {okAnswers : List Answer}
    (hload : runAccesses load s = .next loaded) (hanswers : loaded.answers = s.answers)
    (hexec : exec i loaded = .next t)
    (hreads : ∀ xs, runAccesses (reads (putAnswers xs t)) (putAnswers xs t) =
      .next (putAnswers (okAnswers ++ xs) t)) :
    andThen (runAccesses (load ++ [.cmd i, .rstat]) s)
        (fun u => runAccesses (resultReads reads u) u) =
      .next (putAnswers
        ((if t.status = 0b0001#4 then okAnswers
          else [⟨25, t.einfo2⟩, ⟨24, t.einfo1⟩, ⟨23, t.einfo0⟩])
        ++ ⟨22, t.status.setWidth 8⟩ :: s.answers) t) := by
  have hrun : runAccesses (load ++ [.cmd i, .rstat]) s =
      .next (putAnswers (⟨22, t.status.setWidth 8⟩ :: s.answers) t) := by
    rw [runAccesses_append, hload, ← hanswers, ← answers_of_exec hexec]
    simp only [andThen, runAccesses, performAccess, hexec, answer_eq_putAnswers]
  have hok : statusOk t.status = true ↔ t.status = 0b0001#4 :=
    statusOk_iff_of_legalResult (legalResult_of_exec hexec)
  rw [hrun]
  by_cases ht : t.status = 0b0001#4
  · rw [if_pos ht]
    exact (congrArg (runAccesses · _) (if_pos (hok.mpr ht))).trans (hreads _)
  · rw [if_neg ht]
    exact (congrArg (runAccesses · _) (if_neg (mt hok.mp ht))).trans (runAccesses_readErrorInfo _)

/-- `DEC` ends for every length up to 12. -/
theorem exists_exec_dec_eq_next {s : State} (h : s.len.toNat ≤ 12) :
    ∃ t, exec .dec s = .next t := by
  rcases execDec_cases s with ⟨-, he⟩ | ⟨c, -, he⟩ | ⟨hlen, -⟩
  · exact ⟨_, he⟩
  · exact ⟨_, he⟩
  · omega

/-- Settles O16: the length loaded is at most 12, so `DEC` ends, and the call answers of the state
it leaves. -/
theorem decodeCallAnswersTheHost : Obligations.DecodeCallAnswersTheHost := by
  intro s p h
  obtain ⟨v, hload, -⟩ := runAccesses_ldpw s p h
  have hlen : (putPassword v (BitVec.ofNat 4 p.length) s).len.toNat ≤ 12 := by
    simp only [putPassword_len, BitVec.toNat_ofNat]
    omega
  obtain ⟨t, hexec⟩ := exists_exec_dec_eq_next hlen
  refine ⟨_, t, hload, hexec, ?_⟩
  rw [decodeCall_eq]
  exact call_eq hload rfl hexec fun xs => runAccesses_readRecord (putAnswers xs t)

/-- Settles O17: `ENC` always ends, and the call answers of the state it leaves. -/
theorem encodeCallAnswersTheHost : Obligations.EncodeCallAnswersTheHost := by
  intro s r
  refine ⟨_, exec_enc_eq (putRecord r s), ?_⟩
  rw [encodeCall_eq]
  refine call_eq (runAccesses_ldrec s r) rfl (exec_enc_eq _) fun xs => ?_
  rw [List.append_assoc]
  exact runAccesses_readPassword (putAnswers xs (encodeRecord (putRecord r s)))

end Sys2Proof.Machine

/-! ## Proofs of the checksum family: `CHK` is a sum, so neither zeros nor the order count -/

namespace Sys2Proof.Machine

/-! ### `CHK` is additive in 3-bit arithmetic (40_checksum.md R65) -/

@[simp] theorem checksum_nil : checksum [] = 0#3 := rfl

@[simp] theorem checksum_cons (x : Symbol) (v : List Symbol) :
    checksum (x :: v) = x + checksum v := by
  apply BitVec.eq_of_toNat_eq
  rw [BitVec.toNat_add, checksum_toNat, checksum_toNat, symbolSum_cons]
  omega

/-- `CHK` is the sum of the symbols in 3-bit arithmetic. -/
theorem checksum_eq_sum (v : List Symbol) : checksum v = v.sum := by
  induction v with
  | nil => rfl
  | cons x v ih => rw [checksum_cons, List.sum_cons, ih]

theorem checksum_eq_of_perm {v w : List Symbol} (h : v.Perm w) : checksum v = checksum w := by
  rw [checksum_eq_sum, checksum_eq_sum, h.sum_eq]

/-- Zero symbols do not count (R66). -/
theorem checksum_filter_ne_zero (v : List Symbol) :
    checksum (v.filter fun x => x ≠ 0#3) = checksum v := by
  induction v with
  | nil => rfl
  | cons x v ih =>
    by_cases hx : x = 0#3
    · subst hx
      rw [List.filter_cons_of_neg (by simp), ih, checksum_cons, BitVec.zero_add]
    · rw [List.filter_cons_of_pos (by simpa using hx), checksum_cons, checksum_cons, ih]

/-- A symbol counts the same wherever it stands. -/
theorem checksum_append_cons (pre post : List Symbol) (x : Symbol) :
    checksum (pre ++ x :: post) = x + checksum (pre ++ post) := by
  rw [checksum_eq_of_perm List.perm_middle, checksum_cons]

/-! ### One flipped bit of one symbol (40_checksum.md R67) -/

/-- Setting a clear bit `b` adds `2^b`, and clearing a set one subtracts it. -/
theorem flipBit_eq_add_or_sub (x : Symbol) (b : Fin 3) :
    x ^^^ (1#3 <<< b.val) = x + (1#3 <<< b.val) ∨ x ^^^ (1#3 <<< b.val) = x - (1#3 <<< b.val) := by
  revert x b; decide

theorem flipBit_ne_self (x : Symbol) (b : Fin 3) : x ^^^ (1#3 <<< b.val) ≠ x := by
  revert x b; decide

/-! ### The obligations -/

/-- Settles O18: leave the zeros out on both sides, then reorder. -/
theorem checksumIgnoresZerosAndOrder : Obligations.ChecksumIgnoresZerosAndOrder := by
  intro v w h
  calc checksum v = checksum (v.filter fun x => x ≠ 0#3) := (checksum_filter_ne_zero v).symm
    _ = checksum (w.filter fun x => x ≠ 0#3) := checksum_eq_of_perm h
    _ = checksum w := checksum_filter_ne_zero w

/-- Settles O19: the flipped symbol is a summand, so the sum moves as the symbol does. -/
theorem checksumMovesWithEveryFlippedBit : Obligations.ChecksumMovesWithEveryFlippedBit := by
  intro pre post x b
  simp only [checksum_append_cons]
  refine ⟨(flipBit_eq_add_or_sub x b).imp (fun h => ?_) (fun h => ?_), fun h => ?_⟩
  · rw [h, add_right_comm]
  · rw [h, sub_add_eq_add_sub]
  · exact flipBit_ne_self x b (add_right_cancel h)

end Sys2Proof.Machine

/-! ## Proofs of the validator family: `VAL` passes the valid records and reports the first failure -/

namespace Sys2Proof.Machine

/-! ### The bounds checks, in field order (41_validator.md R69) -/

/-- The first bounds error is that of the first field above its bound. -/
theorem firstBoundsViolation_eq_some_iff (r : Vector Byte 8) (e : CommandError) :
    firstBoundsViolation r = some e ↔
      ∃ f : Fin 8, (∀ g : Fin 8, g < f → r[g] ≤ recordBounds[g]) ∧ recordBounds[f] < r[f] ∧
        e = .fieldOutOfBounds f r[f] recordBounds[f] := by
  rw [firstBoundsViolation, ← Fin.findSome?_eq_findSome?_finRange, Fin.findSome?_eq_some_iff]
  simp only [boundsViolation_eq_some_iff, boundsViolation_eq_none_iff]
  exact exists_congr fun f => and_comm

/-- The eight bounds, field by field. -/
theorem withinBounds_iff (r : Vector Byte 8) :
    WithinBounds r ↔ r[0] ≤ 31#8 ∧ r[1] ≤ 99#8 ∧ r[2] ≤ 7#8 ∧ r[3] ≤ 7#8 ∧ r[4] ≤ 7#8 ∧
      r[5] ≤ 7#8 ∧ r[6] ≤ 3#8 ∧ r[7] ≤ 48#8 := by
  simp [WithinBounds, Fin.forall_fin_succ, recordBounds]

/-! ### The gating checks, in their order (41_validator.md R70 to R73) -/

/-- A gating check comes before the checks after it. -/
theorem gateViolation_or (f : Fin 8) (gate : Byte) (r : Vector Byte 8)
    (rest : Option CommandError) :
    (gateViolation f gate r).or rest =
      if r[f] ≠ 0#8 ∧ r[0] < gate then some (.gatingViolation f gate) else rest := by
  by_cases h : r[f] ≠ 0#8 ∧ r[0] < gate
  · rw [(gateViolation_eq_some_iff f gate r _).mpr ⟨h, rfl⟩, if_pos h, Option.some_or]
  · rw [(gateViolation_eq_none_iff f gate r).mpr h, if_neg h, Option.none_or]

/-- The four gating checks as one decision, with their fields and levels. -/
theorem firstGatingViolation_eq (r : Vector Byte 8) :
    firstGatingViolation r =
      if r[5] ≠ 0#8 ∧ r[0] < 13#8 then some (.gatingViolation 5 13#8)
      else if r[4] ≠ 0#8 ∧ r[0] < 10#8 then some (.gatingViolation 4 10#8)
      else if r[3] ≠ 0#8 ∧ r[0] < 3#8 then some (.gatingViolation 3 3#8)
      else if r[2] ≠ 0#8 ∧ r[0] < 3#8 then some (.gatingViolation 2 3#8)
      else none := by
  rw [firstGatingViolation, williesViolation, enemasViolation, phartsViolation,
    gateViolation_or, gateViolation_or, gateViolation_or]
  rfl

/-- The gate reported is the gate that failed. -/
theorem some_gatingViolation_eq_some_iff (a : Fin 8) (b : Byte) (e : CommandError) :
    some (.gatingViolation a b) = some e ↔
      ∃ (f : Fin 8) (gate : Byte), (f = a ∧ gate = b) ∧ e = .gatingViolation f gate := by
  simp [eq_comm]

/-- The first gating error is that of the first gate that fails. -/
theorem firstGatingViolation_eq_some_iff (r : Vector Byte 8) (e : CommandError) :
    firstGatingViolation r = some e ↔
      ∃ (f : Fin 8) (gate : Byte), FirstGateFailure r f gate ∧ e = .gatingViolation f gate := by
  rw [firstGatingViolation_eq]
  unfold FirstGateFailure
  by_cases h5 : r[5] ≠ 0#8 ∧ r[0] < 13#8
  · simp only [if_pos h5, some_gatingViolation_eq_some_iff]
  by_cases h4 : r[4] ≠ 0#8 ∧ r[0] < 10#8
  · simp only [if_neg h5, if_pos h4, some_gatingViolation_eq_some_iff]
  by_cases h3 : r[3] ≠ 0#8 ∧ r[0] < 3#8
  · simp only [if_neg h5, if_neg h4, if_pos h3, some_gatingViolation_eq_some_iff]
  · simp only [if_neg h5, if_neg h4, if_neg h3, Option.ite_none_right_eq_some,
      some_gatingViolation_eq_some_iff, and_assoc, exists_and_left]

/-- A gate is open when its field is 0 or the level reaches it. -/
theorem not_gated_iff (x level gate : Byte) :
    ¬(x ≠ 0#8 ∧ level < gate) ↔ x = 0#8 ∨ gate ≤ level := by
  rw [not_and_or, not_not, BitVec.not_lt]

/-- The gating checks all pass exactly when all four gates are open. -/
theorem firstGatingViolation_eq_none_iff (r : Vector Byte 8) :
    firstGatingViolation r = none ↔
      (r[5] = 0#8 ∨ 13#8 ≤ r[0]) ∧ (r[4] = 0#8 ∨ 10#8 ≤ r[0]) ∧
      (r[3] = 0#8 ∨ 3#8 ≤ r[0]) ∧ (r[2] = 0#8 ∨ 3#8 ≤ r[0]) := by
  simp only [firstGatingViolation, williesViolation, enemasViolation, phartsViolation,
    birdsViolation, Option.or_eq_none_iff, gateViolation_eq_none_iff, not_gated_iff]
  rfl

/-! ### The obligations -/

/-- Within its bounds a record is answered by the gating checks. -/
theorem validate_of_withinBounds {r : Vector Byte 8} (h : WithinBounds r) :
    validate r = firstGatingViolation r := by
  rw [validate, (firstBoundsViolation_eq_none_iff r).mpr h, Option.none_or]

/-- Settles O20: `VAL` passes when both groups of checks pass, and these are the twelve conditions. -/
theorem validatorPassesExactlyValidRecords : Obligations.ValidatorPassesExactlyValidRecords := by
  intro r
  rw [validate, Option.or_eq_none_iff, firstBoundsViolation_eq_none_iff, withinBounds_iff,
    firstGatingViolation_eq_none_iff]
  simp only [ValidRecord, and_assoc]

/-- Settles O21: the bounds checks answer first, and the gating checks on a record within its
bounds. -/
theorem validatorReportsTheFirstFailure : Obligations.ValidatorReportsTheFirstFailure := by
  intro r e
  rw [validate, Option.or_eq_some_iff, firstBoundsViolation_eq_none_iff,
    firstBoundsViolation_eq_some_iff, firstGatingViolation_eq_some_iff]

/-- Settles O22: each check by its own law, their places by the order of the gating checks. -/
theorem williesAndEnemasGates : Obligations.WilliesAndEnemasGates := by
  intro r
  refine ⟨(gateViolation_eq_some_iff 5 gateWillies r _).trans (and_iff_left rfl),
    gateViolation_eq_none_iff 5 gateWillies r,
    (gateViolation_eq_some_iff 4 gateEnemas r _).trans (and_iff_left rfl),
    gateViolation_eq_none_iff 4 gateEnemas r, fun hb h5 => ?_, fun hb h5 h4 => ?_⟩
  · rw [validate_of_withinBounds hb, firstGatingViolation_eq, if_pos h5]
  · rw [validate_of_withinBounds hb, firstGatingViolation_eq, if_neg h5, if_pos h4]

end Sys2Proof.Machine

/-! ## Proofs of the decoder family: what `DEC` answers, by its checksum and its assembled record -/

namespace Sys2Proof.Machine

/-! ### `DEC` by the length it finds (42_decoder.md R77) -/

theorem exec_dec_of_length_zero {s : State} (h : s.len = 0#4) :
    exec .dec s = .next (raiseError .emptyPassword s) := by
  rcases execDec_cases s with ⟨-, he⟩ | ⟨c, hlen, -⟩ | ⟨hlen, -⟩
  · exact he
  · simp [h] at hlen
  · simp [h] at hlen

theorem exec_dec_of_reservedLength {s : State} (h : 13 ≤ s.len.toNat) :
    exec .dec s = .refused .reservedLength := by
  rcases execDec_cases s with ⟨hlen, -⟩ | ⟨c, hlen, -⟩ | ⟨-, he⟩
  · simp [hlen] at h
  · omega
  · exact he

/-- Settles O29, by the two ranges of lengths. -/
theorem decodeEndsExactlyForLengthsUpToTwelve :
    Obligations.DecodeEndsExactlyForLengthsUpToTwelve :=
  fun _ => ⟨exists_exec_dec_eq_next, exec_dec_of_reservedLength⟩

/-! ### The checksum comparison decides between a mismatch and the record (42_decoder.md R78) -/

/-- A right checksum is `CHK` of the payload symbols standing in the checksum slot. -/
theorem rightChecksum_iff_checksum_eq (sym : Vector Symbol 12) (n : Nat) :
    RightChecksum sym n ↔
      ∃ c : Fin 12, c.val + 1 = n ∧ checksum (sym.toList.take c.val) = sym[c] := by
  simp only [RightChecksum, ← BitVec.toNat_inj, checksum_toNat]

theorem decodePassword_of_checksum_ne {c : Fin 12} {s : State}
    (h : checksum (s.sym.toList.take c.val) ≠ s.sym[c]) :
    decodePassword c s =
      raiseError (.checksumMismatch (checksum (s.sym.toList.take c.val)) s.sym[c]) s :=
  if_pos h

theorem decodePassword_of_checksum_eq {c : Fin 12} {s : State}
    (h : checksum (s.sym.toList.take c.val) = s.sym[c]) :
    decodePassword c s = commitRecord (accumulate s.table s.sym c) s :=
  if_neg (not_not_intro h)

/-! ### The field assembly is one record (42_decoder.md R79) -/

/-- The assembled record of a password is the working record of `DEC`. -/
theorem eq_accumulate_of_assembledRecord {table : Vector TableEntry 32} {sym : Vector Symbol 12}
    {c : Fin 12} {w : Vector Byte 8} (h : AssembledRecord table sym (c.val + 1) w) :
    w = accumulate table sym c :=
  record_ext fun f b => (h f b).trans (accumulate_assembles table sym c f b).symm

/-- A password without payload symbols assembles to the all-zero record (R83). -/
theorem assembledRecord_of_length_one (table : Vector TableEntry 32) (sym : Vector Symbol 12) :
    AssembledRecord table sym 1 (Vector.replicate 8 0#8) := by
  intro f b
  have hbit : ∀ i : Fin 32, ¬ PayloadBitSet sym 1 i := fun i hi => by
    obtain ⟨hslot, -⟩ := hi
    omega
  simp [hbit]

/-! ### A valid working record is committed (42_decoder.md R80) -/

theorem commitRecord_of_validRecord {w : Vector Byte 8} (h : ValidRecord w) (s : State) :
    commitRecord w s = withResult (putRecord w s) 0b0001#4 0#8 0#8 0#8 := by
  rw [commitRecord, (validatorPassesExactlyValidRecords w).mpr h]
  exact succeed_eq_withResult (putRecord w s)

/-- With a right checksum, `DEC` goes on to the Validator with the assembled record. -/
theorem exec_dec_of_rightChecksum {s : State} {w : Vector Byte 8}
    (hsum : RightChecksum s.sym s.len.toNat) (hw : AssembledRecord s.table s.sym s.len.toNat w) :
    exec .dec s = .next (commitRecord w s) := by
  obtain ⟨c, hc, heq⟩ := (rightChecksum_iff_checksum_eq _ _).mp hsum
  rw [← hc] at hw
  rw [exec_dec_of_length s c hc.symm, decodePassword_of_checksum_eq heq,
    eq_accumulate_of_assembledRecord hw]

/-- Settles O24: the assembled record reaches the Validator, which passes it. -/
theorem decodeCommitsTheAssembledRecord : Obligations.DecodeCommitsTheAssembledRecord := by
  intro s w hsum hw hvalid
  rw [exec_dec_of_rightChecksum hsum hw, commitRecord_of_validRecord hvalid]

/-- Settles O30: the empty payload has the checksum 0 and assembles to the all-zero record, which is
valid; any other checksum symbol is a mismatch. -/
theorem lengthOnePasswords : Obligations.LengthOnePasswords := by
  intro s hlen
  have hone : s.len.toNat = (0 : Fin 12).val + 1 := by rw [hlen]; rfl
  refine ⟨fun hzero => ?_, fun hne => ?_⟩
  · refine decodeCommitsTheAssembledRecord s _ ?_ ?_ (by decide)
    · exact (rightChecksum_iff_checksum_eq _ _).mpr ⟨0, hone.symm, hzero.symm⟩
    · rw [hone]
      exact assembledRecord_of_length_one s.table s.sym
  · have hmismatch : checksum (s.sym.toList.take (0 : Fin 12).val) ≠ s.sym[(0 : Fin 12)] :=
      fun h => hne h.symm
    rw [exec_dec_of_length s 0 hone, decodePassword_of_checksum_ne hmismatch,
      raiseError_checksumMismatch]
    rfl

/-! ### What `DEC` reads (42_decoder.md R81) -/

/-- Symbols from the checksum slot on are in no payload bit. -/
theorem accumulate_congr {table : Vector TableEntry 32} {p q : Vector Symbol 12} {c : Fin 12}
    (h : ∀ k : Fin 12, k < c → p[k] = q[k]) : accumulate table p c = accumulate table q c := by
  have hbit : ∀ i, payloadBit p c i = payloadBit q c i := fun i => by
    by_cases hi : bitSlot i < c
    · simp only [payloadBit, payloadSymbol, if_pos hi, h _ hi]
    · simp only [payloadBit, payloadSymbol, if_neg hi]
  simp only [accumulate, hbit]

/-- Buffers with the same first symbols have the same list of them. -/
theorem take_toList_congr {p q : Vector Symbol 12} {c : Fin 12}
    (h : ∀ k : Fin 12, k < c → p[k] = q[k]) : p.toList.take c.val = q.toList.take c.val := by
  refine List.ext_getElem (by simp) fun k hk _ => ?_
  have hkc : k < c.val := (List.length_take_le _ _).trans_lt' hk
  simpa using h ⟨k, hkc.trans c.isLt⟩ hkc

/-- Two states that a `DEC` left with the same outcome: the same result and, on success, the same
record. -/
def SameDecodeOutcome (t v : State) : Prop :=
  SameResult t v ∧ (t.status = 0b0001#4 → t.record = v.record)

theorem sameDecodeOutcome_raiseError (e : CommandError) (s u : State) :
    SameDecodeOutcome (raiseError e s) (raiseError e u) :=
  ⟨⟨rfl, rfl, rfl, rfl⟩, fun h => absurd h (raiseError_status_ne e s).left⟩

theorem sameDecodeOutcome_commitRecord (w : Vector Byte 8) (s u : State) :
    SameDecodeOutcome (commitRecord w s) (commitRecord w u) := by
  unfold commitRecord
  cases validate w with
  | some e => exact sameDecodeOutcome_raiseError e s u
  | none => exact ⟨⟨rfl, rfl, rfl, rfl⟩, fun _ => rfl⟩

/-- Decoding reads the table and the symbols up to the checksum slot. -/
theorem sameDecodeOutcome_decodePassword {c : Fin 12} {s u : State} (htable : s.table = u.table)
    (hsym : ∀ k : Fin 12, k ≤ c → s.sym[k] = u.sym[k]) :
    SameDecodeOutcome (decodePassword c s) (decodePassword c u) := by
  have hbelow : ∀ k : Fin 12, k < c → s.sym[k] = u.sym[k] := fun k hk => hsym k hk.le
  have hfound : s.sym[c] = u.sym[c] := hsym c le_rfl
  have htake := take_toList_congr hbelow
  by_cases heq : checksum (s.sym.toList.take c.val) = s.sym[c]
  · have hequ : checksum (u.sym.toList.take c.val) = u.sym[c] := by rwa [← htake, ← hfound]
    rw [decodePassword_of_checksum_eq heq, decodePassword_of_checksum_eq hequ, ← htable,
      ← accumulate_congr hbelow]
    exact sameDecodeOutcome_commitRecord _ s u
  · have hneu : checksum (u.sym.toList.take c.val) ≠ u.sym[c] := by rwa [← htake, ← hfound]
    rw [decodePassword_of_checksum_ne heq, decodePassword_of_checksum_ne hneu, ← htake, ← hfound]
    exact sameDecodeOutcome_raiseError _ s u

/-- Settles O32, by the length, which the two states share. -/
theorem decodeDependsOnItsOperandsOnly : Obligations.DecodeDependsOnItsOperandsOnly := by
  rintro s u htable ⟨hlen, hsym⟩
  rcases execDec_cases s with ⟨h0, he⟩ | ⟨c, hc, he⟩ | ⟨hres, he⟩ <;> rw [he]
  · refine ⟨fun t ht => ?_, nofun⟩
    obtain rfl := Host.Outcome.next.inj ht
    exact ⟨_, exec_dec_of_length_zero (hlen ▸ h0), sameDecodeOutcome_raiseError .emptyPassword s u⟩
  · refine ⟨fun t ht => ?_, nofun⟩
    obtain rfl := Host.Outcome.next.inj ht
    exact ⟨_, exec_dec_of_length u c (hlen ▸ hc),
      sameDecodeOutcome_decodePassword htable fun k hk => hsym k (hc ▸ Nat.lt_succ_of_le hk)⟩
  · refine ⟨nofun, fun why hwhy => ?_⟩
    rw [← hwhy]
    exact exec_dec_of_reservedLength (hlen ▸ hres)

/-! ### Bounds errors of `DEC` (42_decoder.md R84) -/

/-- The `STATUS` word `0110` is that of a bounds error. -/
theorem exists_fieldOutOfBounds_of_raiseError_status {e : CommandError} {s : State}
    (h : (raiseError e s).status = 0b0110#4) :
    ∃ (f : Fin 8) (value max : Byte), e = .fieldOutOfBounds f value max := by
  cases e with
  | fieldOutOfBounds f value max => exact ⟨f, value, max, rfl⟩
  | _ => simp [statusWord, errorCode] at h

/-- A bounds error of the Validator is about a field of the record that is above its bound. -/
theorem fieldOutOfBounds_of_validate {r : Vector Byte 8} {f : Fin 8} {value max : Byte}
    (h : validate r = some (.fieldOutOfBounds f value max)) :
    value = r[f] ∧ max = recordBounds[f] ∧ recordBounds[f] < r[f] := by
  rcases (validatorReportsTheFirstFailure r _).mp h with ⟨g, -, hlt, he⟩ | ⟨-, g, gate, -, he⟩
  · cases he
    exact ⟨rfl, rfl, hlt⟩
  · cases he

/-- A `DEC` that ends in a bounds error reports a field of its working record. -/
theorem exec_dec_fieldOutOfBounds {s t : State} (h : exec .dec s = .next t)
    (hstatus : t.status = 0b0110#4) :
    ∃ (c : Fin 12) (f : Fin 8), recordBounds[f] < (accumulate s.table s.sym c)[f] ∧
      t = withResult s 0b0110#4 (BitVec.ofNat 8 f.val) (accumulate s.table s.sym c)[f]
        recordBounds[f] := by
  rcases execDec_cases s with ⟨-, he⟩ | ⟨c, -, he⟩ | ⟨-, he⟩ <;> rw [he] at h
  · obtain rfl := Host.Outcome.next.inj h
    simp [raiseError_emptyPassword] at hstatus
  · obtain rfl := Host.Outcome.next.inj h
    rcases decodePassword_cases c s with ⟨-, hr⟩ | ⟨-, ⟨e, hv, hr⟩ | ⟨-, hr⟩⟩ <;>
      rw [hr] at hstatus
    · simp [raiseError_checksumMismatch] at hstatus
    · obtain ⟨f, value, max, rfl⟩ := exists_fieldOutOfBounds_of_raiseError_status hstatus
      obtain ⟨rfl, rfl, hlt⟩ := fieldOutOfBounds_of_validate hv
      exact ⟨c, f, hlt, hr.trans (raiseError_fieldOutOfBounds f _ _ s)⟩
    · simp at hstatus
  · cases h

/-- Under WF2 the table names significant bits only, so the working record has no others. -/
theorem accumulate_toNat_lt_of_wf2 {table : Vector TableEntry 32} (h : WF2 table)
    (sym : Vector Symbol 12) (c : Fin 12) (f : Fin 8) :
    (accumulate table sym c)[f].toNat < 2 ^ significantBits f := by
  obtain ⟨-, hnamed, -⟩ := h
  refine Nat.lt_pow_two_of_testBit _ fun b hb => ?_
  rw [BitVec.testBit_toNat, Bool.eq_false_iff]
  intro hset
  have hb8 : b < 8 := BitVec.lt_of_getLsbD hset
  obtain ⟨i, hfield, hshift, -⟩ := (accumulate_assembles table sym c f ⟨b, hb8⟩).mp hset
  have hin : InS f ⟨b, hb8⟩ := hfield ▸ hshift ▸ hnamed i
  exact absurd hb (Nat.not_le.mpr hin)

/-- Only `lives` and `seed` have a bound below what their significant bits can hold. -/
theorem lives_or_seed_of_outOfBounds {f : Fin 8} {value : Byte} (hlt : recordBounds[f] < value)
    (hsig : value.toNat < 2 ^ significantBits f) :
    (f = 1 ∧ 100#8 ≤ value ∧ value ≤ 127#8) ∨ (f = 7 ∧ 49#8 ≤ value ∧ value ≤ 63#8) := by
  rw [BitVec.lt_def] at hlt
  simp only [BitVec.le_def]
  fin_cases f <;> simp [recordBounds, significantBits] at hlt hsig ⊢ <;> omega

/-- Settles O33: the field reported is above its bound and within its significant bits. -/
theorem decodeBoundsErrorsUnderWF2 : Obligations.DecodeBoundsErrorsUnderWF2 := by
  intro s t hwf h hstatus
  obtain ⟨c, f, hlt, rfl⟩ := exec_dec_fieldOutOfBounds h hstatus
  rcases lives_or_seed_of_outOfBounds hlt (accumulate_toNat_lt_of_wf2 hwf s.sym c f) with
    ⟨rfl, hlow, hhigh⟩ | ⟨rfl, hlow, hhigh⟩
  · exact .inl ⟨rfl, hlow, hhigh, rfl⟩
  · exact .inr ⟨rfl, hlow, hhigh, rfl⟩

end Sys2Proof.Machine

/-! ## Proofs of the encoder family: what `ENC` commits, by its assembled payload and its slot -/

namespace Sys2Proof.Machine

/-! ### The password assembly is one buffer, and it has no bit above 31 (43_encoder.md R87, R91) -/

/-- The assembled payload of a record is the working buffer of `ENC`. -/
theorem eq_scatter_of_assembledPayload {table : Vector TableEntry 32} {r : Vector Byte 8}
    {p : Vector Symbol 12} (h : AssembledPayload table r p) : p = scatter table r :=
  password_ext fun k b => (h k b).trans (scatter_assembles table r k b).symm

/-- There is no payload bit 32 or above, so `ENC` leaves those bits of its buffer clear. -/
theorem scatter_getLsbD_eq_false (table : Vector TableEntry 32) (r : Vector Byte 8) {k : Fin 12}
    {b : Fin 3} (h : 32 ≤ 3 * k.val + b.val) : (scatter table r)[k].getLsbD b.val = false := by
  rw [Bool.eq_false_iff]
  intro hset
  obtain ⟨i, hslot, hplace, -⟩ := (scatter_assembles table r k b).mp hset
  omega

/-- The payload has at most eleven symbols: the last slot of the buffer stays 0. -/
theorem scatter_last_eq_zero (table : Vector TableEntry 32) (r : Vector Byte 8) :
    (scatter table r)[(11 : Fin 12)] = 0#3 := by
  refine BitVec.eq_of_getLsbD_eq fun b hb => ?_
  rw [BitVec.getLsbD_zero]
  exact scatter_getLsbD_eq_false table r (k := 11) (b := ⟨b, hb⟩)
    (Nat.le_add_right_of_le (by decide))

/-- The all-zero record assembles to no payload bit at all (R92). -/
theorem assembledPayload_replicate_zero (table : Vector TableEntry 32) :
    AssembledPayload table (Vector.replicate 8 0#8) (Vector.replicate 12 0#3) := by
  intro k b
  simp

/-! ### The checksum slot is what the scan from the end finds (43_encoder.md R89) -/

/-- The scan finds the checksum slot: the last symbol that is not 0 fixes them both. -/
theorem freeSlot_eq_of_isChecksumSlot {p : Vector Symbol 12} {slot : Fin 12}
    (h : IsChecksumSlot p slot) : freeSlot p = slot.val := by
  obtain ⟨hzeros, hlast⟩ := h
  obtain ⟨hfree, hfreeLast⟩ := freeSlot_spec p
  apply Nat.le_antisymm
  · rcases hfreeLast with h0 | ⟨k, hk, hne⟩
    · omega
    · have : ¬ slot ≤ k := fun hle => hne (hzeros k hle)
      omega
  · rcases hlast with rfl | ⟨k, hk, hne⟩
    · exact Nat.zero_le _
    · have : ¬ freeSlot p ≤ k.val := fun hle => hne (hfree k hle)
      omega

/-- A buffer whose last slot is 0 has room for the checksum symbol. -/
theorem exists_isChecksumSlot {p : Vector Symbol 12} (h : p[(11 : Fin 12)] = 0#3) :
    ∃ slot, IsChecksumSlot p slot := by
  obtain ⟨hzeros, hlast⟩ := freeSlot_spec p
  have hlt : freeSlot p < 12 := by
    rcases hlast with h0 | ⟨k, hk, hne⟩
    · omega
    · have : k ≠ 11 := fun hk11 => hne (hk11 ▸ h)
      omega
  refine ⟨⟨freeSlot p, hlt⟩, hzeros, hlast.imp Fin.ext ?_⟩
  exact fun ⟨k, hk, hne⟩ => ⟨k, hk.symm, hne⟩

/-- In a buffer of zeros the checksum symbol comes first (R92). -/
theorem isChecksumSlot_replicate_zero : IsChecksumSlot (Vector.replicate 12 0#3) 0 :=
  ⟨fun _ _ => by simp, .inl rfl⟩

/-- From the checksum slot on there are only zeros, so the symbols below it have the checksum of the
whole buffer (R88). -/
theorem checksum_take_of_isChecksumSlot {p : Vector Symbol 12} {slot : Fin 12}
    (h : IsChecksumSlot p slot) : checksum (p.toList.take slot.val) = checksum p.toList := by
  obtain ⟨hzeros, -⟩ := h
  have hdrop : (p.toList.drop slot.val).sum = 0 := List.sum_eq_zero fun x hx => by
    obtain ⟨j, hj, rfl⟩ := List.mem_iff_getElem.mp hx
    have hlen : j < 12 - slot.val := by simpa using hj
    have hlt : slot.val + j < 12 := by omega
    simpa using hzeros ⟨slot.val + j, hlt⟩ (Nat.le_add_right _ _)
  rw [checksum_eq_sum, checksum_eq_sum, ← List.sum_take_add_sum_drop p.toList slot.val, hdrop,
    add_zero]

/-! ### `ENC` on a valid record (43_encoder.md R86 to R90) -/

theorem checksum_eq_ofNat (v : List Symbol) : checksum v = BitVec.ofNat 3 (symbolSum v) :=
  BitVec.eq_of_toNat_eq (checksum_toNat v)

/-- The password of payload `p` and checksum slot `slot`: its checksum in that slot, the rest of `p`
as it is. -/
def sealedPassword (p : Vector Symbol 12) (slot : Fin 12) : Vector Symbol 12 :=
  p.set slot (checksum p.toList)

/-- The slot is in the buffer, so the write of `ENC` into it takes effect (log 13). -/
theorem setIfInBounds_eq_sealedPassword (p : Vector Symbol 12) (slot : Fin 12) :
    p.setIfInBounds slot.val (checksum p.toList) = sealedPassword p slot :=
  Vector.ext fun k hk => by
    simp only [sealedPassword, Vector.getElem_setIfInBounds, Vector.getElem_set]

theorem sealedPassword_slot (p : Vector Symbol 12) (slot : Fin 12) :
    (sealedPassword p slot)[slot] = checksum p.toList := by
  simp [sealedPassword]

theorem sealedPassword_of_ne {p : Vector Symbol 12} {slot k : Fin 12} (h : k ≠ slot) :
    (sealedPassword p slot)[k] = p[k] :=
  Vector.getElem_set_ne _ _ fun heq => h (Fin.ext heq.symm)

/-- `ENC` of a valid record commits its payload with the checksum in the slot after it. -/
theorem exec_enc_of_validRecord {s : State} {slot : Fin 12} (hvalid : ValidRecord s.record)
    (hslot : IsChecksumSlot (scatter s.table s.record) slot) :
    exec .enc s = .next (succeed (putPassword (sealedPassword (scatter s.table s.record) slot)
      (BitVec.ofNat 4 (slot.val + 1)) s)) := by
  rw [exec_enc_eq, encodeRecord, (validatorPassesExactlyValidRecords _).mpr hvalid]
  simp only [commitPassword, freeSlot_eq_of_isChecksumSlot hslot, setIfInBounds_eq_sealedPassword]

/-- Settles O34: the assembled payload is the buffer of `ENC`, and its checksum slot is the one the
scan finds. -/
theorem encodeCommitsTheAssembledPassword : Obligations.EncodeCommitsTheAssembledPassword := by
  intro s p slot hvalid hp hslot
  obtain rfl := eq_scatter_of_assembledPayload hp
  rw [exec_enc_of_validRecord hvalid hslot, succeed_eq_withResult, sealedPassword,
    checksum_eq_ofNat]

/-- Settles O38: the all-zero record is valid and has no payload, so slot 0 takes the checksum 0. -/
theorem zeroRecordEncodesToOneZeroSymbol : Obligations.ZeroRecordEncodesToOneZeroSymbol := by
  intro s hzero
  have hvalid : ValidRecord s.record := by rw [hzero]; decide
  have hp : AssembledPayload s.table s.record (Vector.replicate 12 0#3) := by
    rw [hzero]
    exact assembledPayload_replicate_zero s.table
  exact encodeCommitsTheAssembledPassword s _ 0 hvalid hp isChecksumSlot_replicate_zero

/-! ### The password committed is canonical (43_encoder.md R91, 44_laws.md R98) -/

theorem rightChecksum_sealedPassword {p : Vector Symbol 12} {slot : Fin 12}
    (h : IsChecksumSlot p slot) : RightChecksum (sealedPassword p slot) (slot.val + 1) := by
  refine (rightChecksum_iff_checksum_eq _ _).mpr ⟨slot, rfl, ?_⟩
  rw [take_toList_congr fun k hk => sealedPassword_of_ne hk.ne, checksum_take_of_isChecksumSlot h,
    sealedPassword_slot]

/-- The symbol just below the checksum is not 0. -/
theorem sealedPassword_ne_zero_below {p : Vector Symbol 12} {slot k : Fin 12}
    (h : IsChecksumSlot p slot) (hk : k.val + 1 = slot.val) : (sealedPassword p slot)[k] ≠ 0#3 := by
  obtain ⟨-, rfl | ⟨j, hj, hne⟩⟩ := h
  · exact absurd hk (Nat.succ_ne_zero _)
  · obtain rfl : j = k := Fin.ext (by omega)
    rwa [sealedPassword_of_ne fun heq => by subst heq; omega]

theorem sealedPassword_eq_zero_above {p : Vector Symbol 12} {slot k : Fin 12}
    (h : IsChecksumSlot p slot) (hk : slot < k) : (sealedPassword p slot)[k] = 0#3 := by
  obtain ⟨hzeros, -⟩ := h
  rw [sealedPassword_of_ne hk.ne', hzeros k hk.le]

/-- At length 12 the bit of `SYM[10]` that `DEC` ignores is clear: it would be payload bit 32. -/
theorem sealedPassword_ignored_bit (table : Vector TableEntry 32) (r : Vector Byte 8) :
    (sealedPassword (scatter table r) 11)[(10 : Fin 12)].getLsbD 2 = false := by
  rw [sealedPassword_of_ne (by decide)]
  exact scatter_getLsbD_eq_false table r (k := 10) (b := 2) (by decide)

theorem symbol_le_three_of_top_bit {x : Symbol} (h : x.getLsbD 2 = false) : x ≤ 3#3 := by
  revert x; decide

/-- Settles O37: the last slot of the payload is free, so there is a checksum slot, and the password
sealed there has each property. -/
theorem encodeLeavesACanonicalPassword : Obligations.EncodeLeavesACanonicalPassword := by
  intro s hvalid
  obtain ⟨slot, hslot⟩ := exists_isChecksumSlot (scatter_last_eq_zero s.table s.record)
  have hlen : (BitVec.ofNat 4 (slot.val + 1)).toNat = slot.val + 1 :=
    Nat.mod_eq_of_lt (by omega)
  have hignored : BitVec.ofNat 4 (slot.val + 1) = 12#4 →
      (sealedPassword (scatter s.table s.record) slot)[(10 : Fin 12)].getLsbD 2 = false := by
    intro h12
    obtain rfl : slot = 11 := Fin.ext (Nat.succ.inj (hlen.symm.trans (congrArg BitVec.toNat h12)))
    exact sealedPassword_ignored_bit s.table s.record
  refine ⟨_, exec_enc_of_validRecord hvalid hslot, succeeded_succeed _, ?_⟩
  simp only [CanonicalPassword, succeed_sym, succeed_len, putPassword_sym, putPassword_len, hlen]
  exact ⟨Nat.succ_pos _, slot.isLt,
    ⟨rightChecksum_sealedPassword hslot,
      fun k hk => sealedPassword_ne_zero_below hslot (Nat.succ.inj hk), hignored⟩,
    fun h12 => symbol_le_three_of_top_bit (hignored h12),
    fun k hk => sealedPassword_eq_zero_above hslot hk⟩

end Sys2Proof.Machine

/-! ## Proofs of the laws family: what `DEC` and `ENC` do to what the other leaves -/

namespace Sys2Proof.Machine

/-! ### Commands by their success (44_laws.md R104, R106) -/

/-- A commit that succeeds is that of a valid record. -/
theorem commitRecord_succeeded {w : Vector Byte 8} {s : State}
    (h : (commitRecord w s).status = 0b0001#4) :
    ValidRecord w ∧ commitRecord w s = succeed (putRecord w s) := by
  unfold commitRecord at h ⊢
  cases hv : validate w with
  | some e =>
    rw [hv] at h
    exact absurd h (raiseError_status_ne e s).left
  | none => exact ⟨(validatorPassesExactlyValidRecords w).mp hv, rfl⟩

/-- A `DEC` that succeeds found a right checksum and committed a valid working record. -/
theorem exec_dec_succeeded {s t : State} (h : exec .dec s = .next t)
    (hstatus : t.status = 0b0001#4) :
    ∃ c : Fin 12, s.len.toNat = c.val + 1 ∧ checksum (s.sym.toList.take c.val) = s.sym[c] ∧
      ValidRecord (accumulate s.table s.sym c) ∧
      t = succeed (putRecord (accumulate s.table s.sym c) s) := by
  rcases execDec_cases s with ⟨-, he⟩ | ⟨c, hc, he⟩ | ⟨-, he⟩ <;> rw [he] at h
  · obtain rfl := Host.Outcome.next.inj h
    exact absurd hstatus (raiseError_status_ne _ s).left
  · obtain rfl := Host.Outcome.next.inj h
    by_cases hsum : checksum (s.sym.toList.take c.val) = s.sym[c]
    · rw [decodePassword_of_checksum_eq hsum] at hstatus ⊢
      exact ⟨c, hc, hsum, commitRecord_succeeded hstatus⟩
    · rw [decodePassword_of_checksum_ne hsum] at hstatus
      exact absurd hstatus (raiseError_status_ne _ s).left
  · cases h

/-- With a right checksum and a valid working record, `DEC` commits that record. -/
theorem exec_dec_of_valid {s : State} {c : Fin 12} (hc : s.len.toNat = c.val + 1)
    (hsum : checksum (s.sym.toList.take c.val) = s.sym[c])
    (hvalid : ValidRecord (accumulate s.table s.sym c)) :
    exec .dec s = .next (succeed (putRecord (accumulate s.table s.sym c) s)) := by
  rw [exec_dec_of_length s c hc, decodePassword_of_checksum_eq hsum,
    commitRecord_of_validRecord hvalid, succeed_eq_withResult]

/-- `ENC` raises the violation of an invalid record. -/
theorem exec_enc_of_violation {s : State} {e : CommandError} (h : validate s.record = some e) :
    exec .enc s = .next (raiseError e s) := by
  rw [exec_enc_eq, encodeRecord, h]

/-- A record on which `ENC` succeeds is valid. -/
theorem validRecord_of_exec_enc {s t : State} (h : exec .enc s = .next t)
    (hstatus : t.status = 0b0001#4) : ValidRecord s.record := by
  rw [← validatorPassesExactlyValidRecords, Option.eq_none_iff_forall_ne_some]
  intro e he
  obtain rfl := Host.Outcome.next.inj ((exec_enc_of_violation he).symm.trans h)
  exact absurd hstatus (raiseError_status_ne e s).left

/-- What `ENC` leaves of a valid record whose checksum slot is `slot`. -/
def sealedState (s : State) (slot : Fin 12) : State :=
  succeed (putPassword (sealedPassword (scatter s.table s.record) slot)
    (BitVec.ofNat 4 (slot.val + 1)) s)

@[simp] theorem sealedState_len (s : State) (slot : Fin 12) :
    (sealedState s slot).len.toNat = slot.val + 1 :=
  Nat.mod_eq_of_lt (by omega)

theorem succeeded_sealedState (s : State) (slot : Fin 12) : Succeeded (sealedState s slot) :=
  succeeded_succeed _

/-- `ENC` of a valid record finds a checksum slot and seals the password there. -/
theorem exists_exec_enc_eq_sealedState {s : State} (hvalid : ValidRecord s.record) :
    ∃ slot, IsChecksumSlot (scatter s.table s.record) slot ∧
      exec .enc s = .next (sealedState s slot) := by
  obtain ⟨slot, hslot⟩ := exists_isChecksumSlot (scatter_last_eq_zero s.table s.record)
  exact ⟨slot, hslot, exec_enc_of_validRecord hvalid hslot⟩

/-- Settles O48: `DEC` commits only what the Validator passes, and `ENC` refuses the rest. -/
theorem outputsAreValid : Obligations.OutputsAreValid := by
  refine ⟨fun s t h hstatus => ?_, fun s t => validRecord_of_exec_enc⟩
  obtain ⟨c, -, -, hvalid, rfl⟩ := exec_dec_succeeded h hstatus
  obtain ⟨slot, -, henc⟩ := exists_exec_enc_eq_sealedState
    (s := succeed (putRecord (accumulate s.table s.sym c) s)) hvalid
  exact ⟨hvalid, _, henc, succeeded_sealedState _ slot⟩

/-- Settles O49, by the two ways in which each command ends. -/
theorem failureChangesOnlyTheResult : Obligations.FailureChangesOnlyTheResult := by
  intro i s t h hstatus
  cases i with
  | dec =>
    rcases exec_dec_next h with ⟨e, -, rfl⟩ | ⟨w, rfl⟩
    · exact raiseError_eq_withResult e s
    · exact absurd rfl hstatus
  | enc =>
    rcases exec_enc_next h with ⟨e, -, rfl⟩ | ⟨p, len, rfl⟩
    · exact raiseError_eq_withResult e s
    · exact absurd rfl hstatus

/-- Settles O36: `ENC` takes its decision and its password from the record and the table. -/
theorem encodeDependsOnTheRecordOnly : Obligations.EncodeDependsOnTheRecordOnly := by
  intro s u htable hrecord
  refine ⟨_, _, exec_enc_eq s, exec_enc_eq u, ?_⟩
  unfold encodeRecord
  rw [← htable, ← hrecord]
  cases validate s.record with
  | some e => exact ⟨⟨rfl, rfl, rfl, rfl⟩, fun h => absurd h (raiseError_status_ne e s).left⟩
  | none => exact ⟨⟨rfl, rfl, rfl, rfl⟩, fun _ => ⟨rfl, rfl⟩⟩

/-! ### A load and then a command -/

theorem runAccesses_cmd (i : Instr) (s : State) : runAccesses [.cmd i] s = exec i s := by
  simp only [runAccesses, performAccess]
  cases exec i s <;> rfl

theorem runAccesses_append_cmd {load : List Access} {s loaded : State}
    (h : runAccesses load s = .next loaded) (i : Instr) :
    runAccesses (load ++ [.cmd i]) s = exec i loaded := by
  rw [runAccesses_append, h]
  exact runAccesses_cmd i loaded

theorem runAccesses_ldrec_enc (r : Vector Byte 8) (s : State) :
    runAccesses (ldrec r ++ [.cmd .enc]) s = exec .enc (putRecord r s) :=
  runAccesses_append_cmd (runAccesses_ldrec s r) .enc

/-- Settles O46, by what the Validator answers of each record. -/
theorem boundsAndGateScenarios : Obligations.BoundsAndGateScenarios := by
  intro s
  have hbounds : validate #v[32#8, 0#8, 0#8, 0#8, 0#8, 0#8, 0#8, 0#8] =
      some (.fieldOutOfBounds 0 32#8 31#8) := by decide
  have hgate : validate #v[2#8, 0#8, 0#8, 1#8, 0#8, 0#8, 0#8, 0#8] =
      some (.gatingViolation 3 3#8) := by decide
  have hvalid : ValidRecord #v[5#8, 0#8, 0#8, 1#8, 0#8, 0#8, 0#8, 0#8] := by decide
  simp only [runAccesses_ldrec_enc]
  refine ⟨⟨_, exec_enc_of_violation (s := putRecord _ s) hbounds, ?_⟩,
    ⟨_, exec_enc_of_violation (s := putRecord _ s) hgate, ?_⟩, ?_⟩
  · rw [raiseError_fieldOutOfBounds]
    exact ⟨rfl, rfl, rfl, rfl⟩
  · rw [raiseError_gatingViolation]
    exact ⟨rfl, rfl, rfl, rfl⟩
  · obtain ⟨slot, -, henc⟩ := exists_exec_enc_eq_sealedState (s := putRecord _ s) hvalid
    exact ⟨_, henc, succeeded_sealedState _ slot⟩

/-- Settles O47, by the laws of the length 1 password and of the all-zero record. -/
theorem crossPasswordScenario : Obligations.CrossPasswordScenario := by
  intro s
  constructor
  · obtain ⟨v, hload, hv⟩ := runAccesses_ldpw s [cross] (by decide)
    obtain ⟨hdec, -⟩ := lengthOnePasswords (putPassword v 1#4 s) rfl
    refine ⟨_, (runAccesses_append_cmd hload .dec).trans (hdec (hv 0)), rfl, rfl, ?_⟩
    exact ⟨_, zeroRecordEncodesToOneZeroSymbol _ rfl, rfl, rfl, rfl⟩
  · rw [runAccesses_ldrec_enc]
    exact ⟨_, zeroRecordEncodesToOneZeroSymbol _ rfl, rfl, rfl, rfl⟩

/-! ### Payload bits through `ENC` and `DEC` (30_encoding.md R47, R48, R54) -/

/-- The working buffer of `ENC` holds at payload bit `i` the record bit that entry `i` names. -/
theorem scatter_payloadBit (table : Vector TableEntry 32) (r : Vector Byte 8) (i : Fin 32) :
    (scatter table r)[bitSlot i].getLsbD (bitPlace i) = recordBit r table[i] := by
  refine Bool.eq_iff_iff.mpr
    ((scatter_assembles table r (bitSlot i) ⟨bitPlace i, Nat.mod_lt _ (by decide)⟩).trans
      ⟨fun ⟨j, hslot, hplace, hbit⟩ => ?_, fun hbit => ⟨i, rfl, rfl, hbit⟩⟩)
  simp only [bitSlot, bitPlace] at hslot hplace
  obtain rfl : j = i := Fin.ext (by omega)
  exact hbit

/-- The symbols below the checksum slot `c` of `sym`, with zeros from there on, are `p`. -/
def HasPayload (sym : Vector Symbol 12) (c : Fin 12) (p : Vector Symbol 12) : Prop :=
  ∀ k : Fin 12, payloadSymbol sym c k = p[k]

theorem hasPayload_iff (sym : Vector Symbol 12) (c : Fin 12) (p : Vector Symbol 12) :
    HasPayload sym c p ↔
      (∀ k : Fin 12, k < c → sym[k] = p[k]) ∧ ∀ k : Fin 12, c ≤ k → p[k] = 0#3 := by
  refine ⟨fun h => ⟨fun k hk => ?_, fun k hk => ?_⟩, fun ⟨hbelow, habove⟩ k => ?_⟩
  · rw [← h k, payloadSymbol, if_pos hk]
  · rw [← h k, payloadSymbol, if_neg hk.not_gt]
  · by_cases hk : k < c
    · rw [payloadSymbol, if_pos hk, hbelow k hk]
    · rw [payloadSymbol, if_neg hk, habove k (not_lt.mp hk)]

/-- A password has the payload it was sealed with. -/
theorem hasPayload_sealedPassword {p : Vector Symbol 12} {slot : Fin 12}
    (h : IsChecksumSlot p slot) : HasPayload (sealedPassword p slot) slot p := by
  obtain ⟨hzeros, -⟩ := h
  exact (hasPayload_iff _ _ _).mpr ⟨fun k hk => sealedPassword_of_ne hk.ne, hzeros⟩

theorem HasPayload.payloadBit_eq {sym : Vector Symbol 12} {c : Fin 12} {p : Vector Symbol 12}
    (h : HasPayload sym c p) (i : Fin 32) :
    payloadBit sym c i = p[bitSlot i].getLsbD (bitPlace i) := by
  rw [payloadBit, h (bitSlot i)]

/-- Zeros behind the payload do not count in its checksum (40_checksum.md R66). -/
theorem HasPayload.checksum_eq {sym : Vector Symbol 12} {c : Fin 12} {p : Vector Symbol 12}
    (h : HasPayload sym c p) : checksum (sym.toList.take c.val) = checksum p.toList := by
  obtain ⟨hbelow, habove⟩ := (hasPayload_iff _ _ _).mp h
  have hdrop : (p.toList.drop c.val).filter (fun x => x ≠ 0#3) = [] := by
    refine List.filter_eq_nil_iff.mpr fun x hx => ?_
    obtain ⟨j, hj, rfl⟩ := List.mem_iff_getElem.mp hx
    have hlen : j < 12 - c.val := by simpa using hj
    simpa using habove ⟨c.val + j, by omega⟩ (Nat.le_add_right _ _)
  rw [take_toList_congr hbelow]
  apply checksumIgnoresZerosAndOrder
  conv_rhs => rw [← List.take_append_drop c.val p.toList]
  rw [List.filter_append, hdrop, List.append_nil]

/-- The working record of `DEC` depends on the payload bits alone. -/
theorem accumulate_eq_of_payloadBit_eq {table : Vector TableEntry 32} {p q : Vector Symbol 12}
    {c d : Fin 12} (h : ∀ i, payloadBit p c i = payloadBit q d i) :
    accumulate table p c = accumulate table q d := by
  simp only [accumulate, h]

/-- `DEC` of payload bits taken from a record keeps the bits that `TABLE` names, and no others. -/
theorem accumulate_getLsbD_of_payloadBit {table : Vector TableEntry 32} {sym : Vector Symbol 12}
    {c : Fin 12} {r : Vector Byte 8} (h : ∀ i, payloadBit sym c i = recordBit r table[i])
    (f b : Fin 8) :
    (accumulate table sym c)[f].getLsbD b.val = true ↔
      TableNames table f b ∧ r[f].getLsbD b.val = true := by
  refine (accumulate_assembles table sym c f b).trans ?_
  simp only [← payloadBit_eq_true_iff, h, recordBit]
  constructor
  · rintro ⟨i, rfl, rfl, hbit⟩
    exact ⟨⟨i, rfl, rfl⟩, hbit⟩
  · rintro ⟨⟨i, rfl, rfl⟩, hbit⟩
    exact ⟨i, rfl, rfl, hbit⟩

/-- The set bits of a record are all named by `TABLE`. -/
def AllBitsNamed (table : Vector TableEntry 32) (r : Vector Byte 8) : Prop :=
  ∀ f b : Fin 8, r[f].getLsbD b.val = true → TableNames table f b

/-- Payload bits taken from a record decode to it exactly when all its set bits are named. -/
theorem accumulate_eq_iff_allBitsNamed {table : Vector TableEntry 32} {sym : Vector Symbol 12}
    {c : Fin 12} {r : Vector Byte 8} (h : ∀ i, payloadBit sym c i = recordBit r table[i]) :
    accumulate table sym c = r ↔ AllBitsNamed table r := by
  have hbits := accumulate_getLsbD_of_payloadBit h
  constructor
  · rintro heq f b hbit
    rw [heq] at hbits
    exact ((hbits f b).mp hbit).left
  · exact fun hnamed => record_ext fun f b =>
      (hbits f b).trans ⟨And.right, fun hbit => ⟨hnamed f b hbit, hbit⟩⟩

/-- What `DEC` assembles has no other bits than those `TABLE` names. -/
theorem allBitsNamed_accumulate (table : Vector TableEntry 32) (sym : Vector Symbol 12)
    (c : Fin 12) : AllBitsNamed table (accumulate table sym c) := by
  intro f b hbit
  obtain ⟨i, hfield, hshift, -⟩ := (accumulate_assembles table sym c f b).mp hbit
  exact ⟨i, hfield, hshift⟩

/-! ### `ENC` and then `DEC` (44_laws.md R93, R95) -/

/-- The password sealed from a record has the payload bits of that record. -/
theorem payloadBit_sealedPassword {table : Vector TableEntry 32} {r : Vector Byte 8}
    {slot : Fin 12} (h : IsChecksumSlot (scatter table r) slot) (i : Fin 32) :
    payloadBit (sealedPassword (scatter table r) slot) slot i = recordBit r table[i] :=
  ((hasPayload_sealedPassword h).payloadBit_eq i).trans (scatter_payloadBit table r i)

/-- `DEC` finds the checksum of a sealed password right and goes on to the Validator. -/
theorem exec_dec_sealedState {s : State} {slot : Fin 12}
    (h : IsChecksumSlot (scatter s.table s.record) slot) :
    exec .dec (sealedState s slot) = .next (commitRecord
      (accumulate s.table (sealedPassword (scatter s.table s.record) slot) slot)
      (sealedState s slot)) := by
  apply exec_dec_of_rightChecksum <;> rw [sealedState_len]
  · exact rightChecksum_sealedPassword h
  · exact accumulate_assembles _ _ _

/-- A valid record whose set bits are all named is encoded and decoded back. -/
theorem exec_enc_dec_of_allBitsNamed {s : State} (hvalid : ValidRecord s.record)
    (hnamed : AllBitsNamed s.table s.record) :
    ∃ t, exec .enc s = .next t ∧ Succeeded t ∧
      exec .dec t = .next (succeed (putRecord s.record t)) := by
  obtain ⟨slot, hslot, henc⟩ := exists_exec_enc_eq_sealedState hvalid
  refine ⟨_, henc, succeeded_sealedState s slot, ?_⟩
  rw [exec_dec_sealedState hslot,
    (accumulate_eq_iff_allBitsNamed (payloadBit_sealedPassword hslot)).mpr hnamed,
    commitRecord_of_validRecord hvalid, succeed_eq_withResult]

/-- A record that `ENC` and then `DEC` gave back has all its set bits named. -/
theorem allBitsNamed_of_exec_enc_dec {s t u : State} (hvalid : ValidRecord s.record)
    (henc : exec .enc s = .next t) (hdec : exec .dec t = .next u) (hstatus : u.status = 0b0001#4)
    (hrecord : u.record = s.record) : AllBitsNamed s.table s.record := by
  obtain ⟨slot, hslot, he⟩ := exists_exec_enc_eq_sealedState hvalid
  obtain rfl := Host.Outcome.next.inj (he.symm.trans henc)
  obtain rfl := Host.Outcome.next.inj ((exec_dec_sealedState hslot).symm.trans hdec)
  obtain ⟨-, hcommit⟩ := commitRecord_succeeded hstatus
  rw [hcommit] at hrecord
  exact (accumulate_eq_iff_allBitsNamed (payloadBit_sealedPassword hslot)).mp hrecord

/-- Settles O40: a decoded record is valid and has named bits only. -/
theorem reencodedPasswordDecodesAlike : Obligations.ReencodedPasswordDecodesAlike := by
  intro s t h hstatus
  obtain ⟨c, -, -, hvalid, rfl⟩ := exec_dec_succeeded h hstatus
  obtain ⟨u, henc, hu, hdec⟩ := exec_enc_dec_of_allBitsNamed
    (s := succeed (putRecord (accumulate s.table s.sym c) s)) hvalid
    (allBitsNamed_accumulate s.table s.sym c)
  exact ⟨u, _, henc, hu, hdec, succeeded_succeed _, rfl⟩

/-- The round trip holds of a valid record exactly when all its set bits are named. -/
theorem roundTrips_iff_allBitsNamed {s : State} {r : Vector Byte 8} (hvalid : ValidRecord r) :
    RoundTrips s r ↔ AllBitsNamed s.table r := by
  unfold RoundTrips
  simp only [runAccesses_ldrec_enc, runAccesses_cmd]
  constructor
  · rintro ⟨t, u, henc, -, hdec, hstatus, hrecord, -⟩
    exact allBitsNamed_of_exec_enc_dec (s := putRecord r s) hvalid henc hdec hstatus hrecord
  · intro hnamed
    obtain ⟨t, henc, ht, hdec⟩ :=
      exec_enc_dec_of_allBitsNamed (s := putRecord r s) hvalid hnamed
    exact ⟨t, _, henc, ht.left, hdec, rfl, rfl, rfl⟩

/-! ### The law for every valid record and WF2 (44_laws.md R94) -/

theorem ValidRecord.withinBounds {r : Vector Byte 8} (h : ValidRecord r) : WithinBounds r := by
  obtain ⟨h0, h1, h2, h3, h4, h5, h6, h7, -⟩ := h
  exact (withinBounds_iff r).mpr ⟨h0, h1, h2, h3, h4, h5, h6, h7⟩

theorem recordBounds_lt (f : Fin 8) : recordBounds[f].toNat < 2 ^ significantBits f := by
  revert f; decide

/-- The set bits of a valid record are significant: a higher one would exceed the bound alone. -/
theorem inS_of_validRecord {r : Vector Byte 8} (hvalid : ValidRecord r) {f b : Fin 8}
    (hbit : r[f].getLsbD b.val = true) : InS f b := by
  have hlow : 2 ^ b.val ≤ r[f].toNat := Nat.ge_two_pow_of_testBit hbit
  have hhigh : r[f].toNat ≤ recordBounds[f].toNat := ValidRecord.withinBounds hvalid f
  exact (Nat.pow_lt_pow_iff_right (by decide)).mp
    ((hlow.trans hhigh).trans_lt (recordBounds_lt f))

/-- Bit `b` of field `f` alone, at the highest level unless it is a bit of the level itself. -/
def oneBitRecord (f b : Fin 8) : Vector Byte 8 :=
  (#v[31#8, 0#8, 0#8, 0#8, 0#8, 0#8, 0#8, 0#8]).set f (1#8 <<< b.val)

/-- Every significant bit is set in some valid record. -/
theorem validRecord_oneBitRecord {f b : Fin 8} (h : InS f b) : ValidRecord (oneBitRecord f b) := by
  revert f b; decide

theorem oneBitRecord_getLsbD (f b : Fin 8) : (oneBitRecord f b)[f].getLsbD b.val = true := by
  revert f b; decide

/-- The field bit that an entry names. -/
def namedBit (table : Vector TableEntry 32) (i : Fin 32) : Fin 8 × Fin 8 :=
  (entryField table[i], entryShift table[i])

/-- The set `S` (00_scope.md R7). -/
def significantSet : Finset (Fin 8 × Fin 8) := Finset.univ.filter fun p => InS p.1 p.2

theorem card_significantSet : significantSet.card = 32 := by decide

/-- A table that names every significant bit meets WF2: 32 entries name 32 bits, so none is left for
a bit named twice or for another bit. -/
theorem wf2_of_names_significant {table : Vector TableEntry 32}
    (h : ∀ f b : Fin 8, InS f b → TableNames table f b) : WF2 table := by
  have hsub : significantSet ⊆ Finset.univ.image (namedBit table) := by
    rintro ⟨f, b⟩ hp
    obtain ⟨i, hfield, hshift⟩ := h f b (Finset.mem_filter.mp hp).right
    exact Finset.mem_image.mpr ⟨i, Finset.mem_univ i, Prod.ext hfield hshift⟩
  have hle : (Finset.univ.image (namedBit table)).card ≤ significantSet.card :=
    Finset.card_image_le.trans card_significantSet.ge
  have himage : significantSet = Finset.univ.image (namedBit table) :=
    Finset.eq_of_subset_of_card_le hsub hle
  refine ⟨fun i j hij => ?_, fun i => ?_, h⟩
  · have hinj : Set.InjOn (namedBit table) (Finset.univ : Finset (Fin 32)) :=
      Finset.card_image_iff.mp (by rw [← himage, card_significantSet]; rfl)
    exact hinj (Finset.mem_univ i) (Finset.mem_univ j) (by rw [namedBit, namedBit, hij])
  · have hmem : namedBit table i ∈ significantSet := by
      rw [himage]
      exact Finset.mem_image_of_mem _ (Finset.mem_univ i)
    exact (Finset.mem_filter.mp hmem).right

/-- Settles O39. Under WF2 every bit that a valid record can have is named; the other way, a record
with one significant bit comes back only when that bit is named, and 32 entries name 32 bits only
when they are a bijection. -/
theorem roundTripOfValidRecords : Obligations.RoundTripOfValidRecords := by
  refine ⟨fun s r ⟨_, _, hnames⟩ hvalid => ?_, fun s hlaw => ?_, fun s r hvalid => ?_⟩
  · exact (roundTrips_iff_allBitsNamed hvalid).mpr
      fun f b hbit => hnames f b (inS_of_validRecord hvalid hbit)
  · refine wf2_of_names_significant fun f b hin => ?_
    have hvalid := validRecord_oneBitRecord hin
    exact (roundTrips_iff_allBitsNamed hvalid).mp (hlaw _ hvalid) f b (oneBitRecord_getLsbD f b)
  · exact roundTrips_iff_allBitsNamed hvalid

/-! ### Flipping a bit of one symbol (44_laws.md R96) -/

theorem writeSym_getElem_self (k : Fin 12) (v : Symbol) (s : State) :
    (writeSym k v s).sym[k] = v := Vector.getElem_set_self _

theorem writeSym_getElem_of_ne {j k : Fin 12} (h : j ≠ k) (v : Symbol) (s : State) :
    (writeSym k v s).sym[j] = s.sym[j] :=
  Vector.getElem_set_ne k.isLt j.isLt fun heq => h (Fin.ext heq.symm)

/-- A flipped bit of one symbol in a list moves the checksum by its weight (40_checksum.md R67). -/
theorem checksum_set_flipBit {v : List Symbol} {k : Nat} (hk : k < v.length) (b : Fin 3) :
    (checksum (v.set k (v[k] ^^^ (1#3 <<< b.val))) = checksum v + (1#3 <<< b.val) ∨
      checksum (v.set k (v[k] ^^^ (1#3 <<< b.val))) = checksum v - (1#3 <<< b.val)) ∧
    checksum (v.set k (v[k] ^^^ (1#3 <<< b.val))) ≠ checksum v := by
  obtain ⟨pre, post, hv, -, hset⟩ := List.exists_of_set (a' := v[k] ^^^ (1#3 <<< b.val)) hk
  have hmoves := checksumMovesWithEveryFlippedBit pre post v[k] b
  rwa [← hset, ← hv] at hmoves

/-- A wrong checksum in slot `c` is what `DEC` reports. -/
theorem exec_dec_of_checksum_ne {s : State} {c : Fin 12} (hc : s.len.toNat = c.val + 1)
    (hne : checksum (s.sym.toList.take c.val) ≠ s.sym[c]) :
    exec .dec s = .next (withResult s 0b0100#4
      ((checksum (s.sym.toList.take c.val)).setWidth 8) (s.sym[c].setWidth 8) 0#8) := by
  rw [exec_dec_of_length s c hc, decodePassword_of_checksum_ne hne, raiseError_checksumMismatch]

/-- Settles O41: a flip below the checksum slot moves the sum and leaves the checksum symbol; a flip
of the checksum symbol leaves the sum. -/
theorem oneFlippedBitFailsTheChecksum : Obligations.OneFlippedBitFailsTheChecksum := by
  intro s c k b hc hright
  obtain ⟨c', hc', hsum⟩ := (rightChecksum_iff_checksum_eq _ _).mp hright
  obtain rfl : c' = c := Fin.ext (by omega)
  set u := writeSym k (s.sym[k] ^^^ (1#3 <<< b.val)) s with hu
  have hlen : u.len.toNat = c'.val + 1 := hc
  constructor
  · intro hk
    have hlt : k.val < (s.sym.toList.take c'.val).length := by simpa using hk
    have htake : u.sym.toList.take c'.val = (s.sym.toList.take c'.val).set k.val
        ((s.sym.toList.take c'.val)[k.val] ^^^ (1#3 <<< b.val)) := by
      simp [hu, Vector.toList_set, List.take_set]
    have hfound : u.sym[c'] = s.sym[c'] := writeSym_getElem_of_ne hk.ne' _ s
    obtain ⟨hmoved, hne⟩ := checksum_set_flipBit hlt b
    rw [← htake, hsum] at hmoved hne
    refine ⟨_, hmoved, ?_⟩
    rw [exec_dec_of_checksum_ne hlen (hfound ▸ hne), hfound]
  · rintro rfl
    have hbelow : ∀ j : Fin 12, j < k → u.sym[j] = s.sym[j] :=
      fun j hj => writeSym_getElem_of_ne hj.ne _ s
    have hfound : u.sym[k] = s.sym[k] ^^^ (1#3 <<< b.val) := writeSym_getElem_self k _ s
    have hkept : checksum (u.sym.toList.take k.val) = s.sym[k] := by
      rw [take_toList_congr hbelow, hsum]
    have hne : checksum (u.sym.toList.take k.val) ≠ u.sym[k] := by
      rw [hkept, hfound]
      exact (flipBit_ne_self _ b).symm
    rw [exec_dec_of_checksum_ne hlen hne, hkept, hfound]

/-! ### Passwords with the same payload decode alike (44_laws.md R97, R99) -/

theorem exists_hasPayload (sym : Vector Symbol 12) (c : Fin 12) : ∃ p, HasPayload sym c p :=
  ⟨Vector.ofFn (payloadSymbol sym c), fun k => by simp⟩

/-- The Validator reports no checksum mismatch. -/
theorem commitRecord_status_ne_mismatch (w : Vector Byte 8) (s : State) :
    (commitRecord w s).status ≠ 0b0100#4 := by
  unfold commitRecord
  cases hv : validate w with
  | none => simp
  | some e =>
    rcases (validatorReportsTheFirstFailure w e).mp hv with ⟨f, -, -, rfl⟩ | ⟨-, f, gate, -, rfl⟩
    · simp [raiseError_fieldOutOfBounds]
    · simp [raiseError_gatingViolation]

/-- A zero symbol behind the payload belongs to the same payload. -/
theorem HasPayload.append_zero {p q r : Vector Symbol 12} {c d : Fin 12} (h : HasPayload p c r)
    (hd : d.val = c.val + 1) (hbelow : ∀ k : Fin 12, k < c → q[k] = p[k]) (hzero : q[c] = 0#3) :
    HasPayload q d r := by
  obtain ⟨hpayload, hzeros⟩ := (hasPayload_iff _ _ _).mp h
  refine (hasPayload_iff _ _ _).mpr ⟨fun k hk => ?_, fun k hk => hzeros k (by omega)⟩
  rcases (show k < c ∨ k = c by omega) with hlt | rfl
  · rw [hbelow k hlt, hpayload k hlt]
  · rw [hzero, hzeros k le_rfl]

/-- Settles O44: the zero symbol counts neither in the checksum nor in the record. -/
theorem trailingZeroSymbolKeepsTheOutcome : Obligations.TrailingZeroSymbolKeepsTheOutcome := by
  intro s u c d htable hc hcd hd hright hbelow hzero hlast
  obtain ⟨c', hc', hsum⟩ := (rightChecksum_iff_checksum_eq _ _).mp hright
  obtain rfl : c' = c := Fin.ext (by omega)
  obtain ⟨p, hs⟩ := exists_hasPayload s.sym c'
  have hu : HasPayload u.sym d p := hs.append_zero hcd hbelow hzero
  have hsumu : checksum (u.sym.toList.take d.val) = u.sym[d] := by
    rw [hu.checksum_eq, ← hs.checksum_eq, hsum, hlast]
  have hw : accumulate u.table u.sym d = accumulate s.table s.sym c' := by
    rw [htable]
    exact accumulate_eq_of_payloadBit_eq fun i => by
      rw [hu.payloadBit_eq, ← hs.payloadBit_eq]
  refine ⟨_, _, exec_dec_of_length s c' hc, exec_dec_of_length u d hd, ?_⟩
  rw [decodePassword_of_checksum_eq hsum, decodePassword_of_checksum_eq hsumu, hw]
  obtain ⟨hresult, hrecord⟩ := sameDecodeOutcome_commitRecord (accumulate s.table s.sym c') s u
  exact ⟨hresult, commitRecord_status_ne_mismatch _ s, hrecord⟩

/-! ### The ignored bit: bit 2 of `SYM[10]` (30_encoding.md R49) -/

/-- The payload with its ignored bit changed. -/
def toggleIgnoredBit (p : Vector Symbol 12) : Vector Symbol 12 := p.set 10 (p[10] + 4#3)

theorem toggleIgnoredBit_ten (p : Vector Symbol 12) :
    (toggleIgnoredBit p)[(10 : Fin 12)] = p[(10 : Fin 12)] + 4#3 :=
  Vector.getElem_set_self _

theorem toggleIgnoredBit_of_ne (p : Vector Symbol 12) {k : Fin 12} (h : k ≠ 10) :
    (toggleIgnoredBit p)[k] = p[k] :=
  Vector.getElem_set_ne _ _ fun heq => h (Fin.ext heq.symm)

/-- Adding 4 to a symbol changes its top bit alone. -/
theorem symbol_add_four_getLsbD (x : Symbol) (b : Fin 3) (hb : b ≠ 2) :
    (x + 4#3).getLsbD b.val = x.getLsbD b.val := by
  revert x b; decide

/-- Toggling leaves every bit below bit 32. -/
theorem toggleIgnoredBit_getLsbD (p : Vector Symbol 12) (k : Fin 12) (b : Fin 3)
    (hkb : 3 * k.val + b.val < 32) :
    (toggleIgnoredBit p)[k].getLsbD b.val = p[k].getLsbD b.val := by
  rcases eq_or_ne k 10 with rfl | hk
  · rw [toggleIgnoredBit_ten]
    exact symbol_add_four_getLsbD _ b fun hb => absurd hkb (by rw [hb]; decide)
  · rw [toggleIgnoredBit_of_ne p hk]

/-- The ignored bit is no payload bit. -/
theorem toggleIgnoredBit_payloadBit (p : Vector Symbol 12) (i : Fin 32) :
    (toggleIgnoredBit p)[bitSlot i].getLsbD (bitPlace i) =
      p[bitSlot i].getLsbD (bitPlace i) :=
  toggleIgnoredBit_getLsbD p (bitSlot i) ⟨bitPlace i, Nat.mod_lt _ (by decide)⟩
    (by simp only [bitSlot, bitPlace]; omega)

/-- The checksum counts the ignored bit. -/
theorem checksum_toggleIgnoredBit (p : Vector Symbol 12) :
    checksum (toggleIgnoredBit p).toList = checksum p.toList + 4#3 := by
  have hlen : 10 < p.toList.length := by simp
  obtain ⟨pre, post, hp, -, hset⟩ := List.exists_of_set (a' := p[10] + 4#3) hlen
  rw [toggleIgnoredBit, Vector.toList_set, hset, checksum_append_cons, hp, checksum_append_cons,
    Vector.getElem_toList, add_right_comm]

/-- A password of length 12 has the toggled payload when `SYM[10]` is moved by 4. -/
theorem hasPayload_toggleIgnoredBit_iff (sym p : Vector Symbol 12) :
    HasPayload sym 11 (toggleIgnoredBit p) ↔
      (∀ k : Fin 12, k < 10 → sym[k] = p[k]) ∧ sym[(10 : Fin 12)] = p[(10 : Fin 12)] + 4#3 ∧
        p[(11 : Fin 12)] = 0#3 := by
  rw [hasPayload_iff]
  constructor
  · rintro ⟨hbelow, habove⟩
    refine ⟨fun k hk => ?_, ?_, ?_⟩
    · rw [hbelow k (hk.trans (by decide)), toggleIgnoredBit_of_ne p hk.ne]
    · rw [hbelow 10 (by decide), toggleIgnoredBit_ten]
    · rw [← habove 11 le_rfl, toggleIgnoredBit_of_ne p (by decide)]
  · rintro ⟨hbelow, hten, hlast⟩
    refine ⟨fun k hk => ?_, fun k hk => ?_⟩
    · rcases (show k < 10 ∨ k = 10 by omega) with hlt | rfl
      · rw [hbelow k hlt, toggleIgnoredBit_of_ne p hlt.ne]
      · rw [hten, toggleIgnoredBit_ten]
    · obtain rfl : k = 11 := by omega
      rw [toggleIgnoredBit_of_ne p (by decide), hlast]

/-- Committing a record and holding another password do not affect each other. -/
theorem commitRecord_putPassword (w : Vector Byte 8) (p : Vector Symbol 12) (n : LenWord)
    (s : State) : commitRecord w (putPassword p n s) = putPassword p n (commitRecord w s) := by
  unfold commitRecord
  cases validate w <;> rfl

theorem symbol_xor_four (x : Symbol) : x ^^^ 4#3 = x + 4#3 := by
  revert x; decide

/-- Changing the top bit of `SYM[10]` toggles the ignored bit, whatever checksum symbol follows. -/
theorem hasPayload_of_flipped_ten {s : State} {q : Vector Symbol 12} (h : HasPayload s.sym 11 q)
    (x : Symbol) :
    HasPayload (writeSym 11 x (writeSym 10 (s.sym[10] ^^^ 4#3) s)).sym 11 (toggleIgnoredBit q) := by
  obtain ⟨hbelow, habove⟩ := (hasPayload_iff _ _ _).mp h
  refine (hasPayload_toggleIgnoredBit_iff _ _).mpr ⟨fun k hk => ?_, ?_, habove 11 le_rfl⟩
  · rw [writeSym_getElem_of_ne (hk.trans (by decide)).ne, writeSym_getElem_of_ne hk.ne,
      hbelow k (hk.trans (by decide))]
  · rw [writeSym_getElem_of_ne (by decide), writeSym_getElem_self, ← hbelow 10 (by decide)]
    exact symbol_xor_four _

/-- Settles O42: both the sum and the symbol it is compared with move by 4, and no payload bit
moves. -/
theorem ignoredBitWithAdjustedChecksum : Obligations.IgnoredBitWithAdjustedChecksum := by
  intro s u hlen hu
  obtain ⟨q, hs⟩ := exists_hasPayload s.sym 11
  have hq : HasPayload u.sym 11 (toggleIgnoredBit q) := hu ▸ hasPayload_of_flipped_ten hs _
  have hfound : u.sym[(11 : Fin 12)] = s.sym[(11 : Fin 12)] + 4#3 :=
    hu ▸ writeSym_getElem_self 11 _ _
  have hsum : checksum (u.sym.toList.take (11 : Fin 12).val) =
      checksum (s.sym.toList.take (11 : Fin 12).val) + 4#3 := by
    rw [hq.checksum_eq, checksum_toggleIgnoredBit, ← hs.checksum_eq]
  have htable : u.table = s.table := hu ▸ rfl
  have hw : accumulate u.table u.sym 11 = accumulate s.table s.sym 11 := by
    rw [htable]
    exact accumulate_eq_of_payloadBit_eq fun i => by
      rw [hq.payloadBit_eq, toggleIgnoredBit_payloadBit, ← hs.payloadBit_eq]
  have hlens : s.len.toNat = (11 : Fin 12).val + 1 := congrArg BitVec.toNat hlen
  have hlenu : u.len.toNat = (11 : Fin 12).val + 1 := hu ▸ hlens
  by_cases heq : checksum (s.sym.toList.take (11 : Fin 12).val) = s.sym[(11 : Fin 12)]
  · have hequ : checksum (u.sym.toList.take (11 : Fin 12).val) = u.sym[(11 : Fin 12)] := by
      rw [hsum, heq, hfound]
    refine ⟨_, _, exec_dec_of_length s 11 hlens, exec_dec_of_length u 11 hlenu, .inr ?_⟩
    rw [decodePassword_of_checksum_eq heq, decodePassword_of_checksum_eq hequ, hw]
    refine ⟨commitRecord_status_ne_mismatch _ s, ?_⟩
    rw [← commitRecord_putPassword, show putPassword u.sym u.len s = u from hu ▸ rfl]
  · have hneu : checksum (u.sym.toList.take (11 : Fin 12).val) ≠ u.sym[(11 : Fin 12)] := by
      rw [hsum, hfound]
      exact fun h => heq (add_right_cancel h)
    refine ⟨_, _, exec_dec_of_checksum_ne hlens heq, exec_dec_of_checksum_ne hlenu hneu,
      .inl ⟨_, _, rfl, ?_⟩⟩
    rw [hsum, hfound]

/-! ### The payloads of one record under WF2 (44_laws.md R98, R100) -/

/-- A table that names no bit twice gives the payload bits back from the assembled record. -/
theorem recordBit_accumulate {table : Vector TableEntry 32}
    (hinj : ∀ i j : Fin 32, table[i] = table[j] → i = j) (sym : Vector Symbol 12) (c : Fin 12)
    (i : Fin 32) : recordBit (accumulate table sym c) table[i] = payloadBit sym c i := by
  refine Bool.eq_iff_iff.mpr
    ((accumulate_assembles table sym c (entryField table[i]) (entryShift table[i])).trans ?_)
  rw [payloadBit_eq_true_iff]
  refine ⟨fun ⟨j, hfield, hshift, hbit⟩ => ?_, fun hbit => ⟨i, rfl, rfl, hbit⟩⟩
  obtain rfl : j = i := hinj j i (entry_ext hfield hshift)
  exact hbit

/-- Under WF2 a `DEC` gives the valid record `r` exactly when the checksum is right and the payload
bits are those of `r`. -/
theorem exec_dec_gives_record_iff {u : State} {d : Fin 12} {r : Vector Byte 8} (hwf : WF2 u.table)
    (hvalid : ValidRecord r) (hd : u.len.toNat = d.val + 1) :
    (∃ v, exec .dec u = .next v ∧ v.status = 0b0001#4 ∧ v.record = r) ↔
      checksum (u.sym.toList.take d.val) = u.sym[d] ∧
        ∀ i, payloadBit u.sym d i = recordBit r u.table[i] := by
  obtain ⟨hinj, -, hnames⟩ := hwf
  constructor
  · rintro ⟨v, hdec, hstatus, hrecord⟩
    obtain ⟨d', hd', hsum, -, rfl⟩ := exec_dec_succeeded hdec hstatus
    obtain rfl : d' = d := Fin.ext (by omega)
    obtain rfl : accumulate u.table u.sym d' = r := hrecord
    exact ⟨hsum, fun i => (recordBit_accumulate hinj u.sym d' i).symm⟩
  · rintro ⟨hsum, hbits⟩
    have hw : accumulate u.table u.sym d = r := (accumulate_eq_iff_allBitsNamed hbits).mpr
      fun f b hbit => hnames f b (inS_of_validRecord hvalid hbit)
    exact ⟨_, exec_dec_of_valid hd hsum (hw ▸ hvalid), rfl, hw⟩

/-- A bit of the buffer below bit 32 is a payload bit. -/
theorem getLsbD_eq_of_payloadBits {p q : Vector Symbol 12}
    (h : ∀ i : Fin 32, q[bitSlot i].getLsbD (bitPlace i) = p[bitSlot i].getLsbD (bitPlace i))
    (k : Fin 12) (b : Fin 3) (hkb : 3 * k.val + b.val < 32) :
    q[k].getLsbD b.val = p[k].getLsbD b.val := by
  have hslot : bitSlot ⟨3 * k.val + b.val, hkb⟩ = k := Fin.ext (by simp only [bitSlot]; omega)
  have hplace : bitPlace ⟨3 * k.val + b.val, hkb⟩ = b.val := by simp only [bitPlace]; omega
  simpa only [hslot, hplace] using h ⟨3 * k.val + b.val, hkb⟩

/-- Symbols that agree in their low two bits are equal or 4 apart. -/
theorem symbol_eq_or_add_four {x y : Symbol} (h0 : y.getLsbD 0 = x.getLsbD 0)
    (h1 : y.getLsbD 1 = x.getLsbD 1) : y = x ∨ y = x + 4#3 := by
  revert x y; decide

theorem buffer_ext {p q : Vector Symbol 12} (h : ∀ k : Fin 12, q[k] = p[k]) : q = p :=
  Vector.ext fun k hk => h ⟨k, hk⟩

/-- Buffers with the same payload bits and last symbol differ in the ignored bit at most. -/
theorem eq_or_eq_toggleIgnoredBit {p q : Vector Symbol 12}
    (h : ∀ i : Fin 32, q[bitSlot i].getLsbD (bitPlace i) = p[bitSlot i].getLsbD (bitPlace i))
    (hlast : q[(11 : Fin 12)] = p[(11 : Fin 12)]) : q = p ∨ q = toggleIgnoredBit p := by
  have hbit := getLsbD_eq_of_payloadBits h
  have hothers : ∀ k : Fin 12, k ≠ 10 → q[k] = p[k] := fun k hk => by
    rcases (show k < 10 ∨ k = 11 by omega) with hlt | rfl
    · exact BitVec.eq_of_getLsbD_eq fun b hb => hbit k ⟨b, hb⟩ (by simp only; omega)
    · exact hlast
  refine (symbol_eq_or_add_four (hbit 10 0 (by decide)) (hbit 10 1 (by decide))).imp
    (fun hten => buffer_ext fun k => ?_) (fun hten => buffer_ext fun k => ?_)
  · rcases eq_or_ne k 10 with rfl | hk
    · exact hten
    · exact hothers k hk
  · rcases eq_or_ne k 10 with rfl | hk
    · rw [toggleIgnoredBit_ten]
      exact hten
    · rw [toggleIgnoredBit_of_ne p hk, hothers k hk]

/-- The payloads with the bits of `r` are the one that `ENC` assembles and its toggled form. -/
theorem payloadBits_eq_iff_hasPayload (table : Vector TableEntry 32) (r : Vector Byte 8)
    (sym : Vector Symbol 12) (d : Fin 12) :
    (∀ i, payloadBit sym d i = recordBit r table[i]) ↔
      HasPayload sym d (scatter table r) ∨
        HasPayload sym d (toggleIgnoredBit (scatter table r)) := by
  constructor
  · intro h
    obtain ⟨q, hq⟩ := exists_hasPayload sym d
    obtain ⟨-, habove⟩ := (hasPayload_iff _ _ _).mp hq
    have hbits : ∀ i : Fin 32, q[bitSlot i].getLsbD (bitPlace i) =
        (scatter table r)[bitSlot i].getLsbD (bitPlace i) := fun i => by
      rw [← hq.payloadBit_eq, h i, scatter_payloadBit]
    have hlast : q[(11 : Fin 12)] = (scatter table r)[(11 : Fin 12)] := by
      rw [habove 11 (by omega), scatter_last_eq_zero]
    rcases eq_or_eq_toggleIgnoredBit hbits hlast with rfl | rfl
    · exact .inl hq
    · exact .inr hq
  · rintro (h | h) i
    · rw [h.payloadBit_eq, scatter_payloadBit]
    · rw [h.payloadBit_eq, toggleIgnoredBit_payloadBit, scatter_payloadBit]

theorem symbol_add_four_top_bit {x : Symbol} (h : x.getLsbD 2 = false) :
    (x + 4#3).getLsbD 2 = true := by
  revert x; decide

theorem scatter_ignored_bit (table : Vector TableEntry 32) (r : Vector Byte 8) :
    (scatter table r)[(10 : Fin 12)].getLsbD 2 = false :=
  scatter_getLsbD_eq_false table r (k := 10) (b := 2) (by decide)

/-- Only a password of length 12 has the ignored bit, and that bit is set in the toggled payload. -/
theorem last_of_hasPayload_toggle {table : Vector TableEntry 32} {r : Vector Byte 8}
    {sym : Vector Symbol 12} {d : Fin 12}
    (h : HasPayload sym d (toggleIgnoredBit (scatter table r))) :
    d = 11 ∧ sym[(10 : Fin 12)].getLsbD 2 = true := by
  obtain ⟨hbelow, habove⟩ := (hasPayload_iff _ _ _).mp h
  have htop : (toggleIgnoredBit (scatter table r))[(10 : Fin 12)].getLsbD 2 = true := by
    rw [toggleIgnoredBit_ten]
    exact symbol_add_four_top_bit (scatter_ignored_bit table r)
  by_cases hd : d ≤ 10
  · rw [habove 10 hd] at htop
    cases htop
  · obtain rfl : d = 11 := by omega
    exact ⟨rfl, hbelow 10 (by decide) ▸ htop⟩

/-- The checksum slot is the first one with only zeros from it on. -/
theorem isChecksumSlot_le_iff {p : Vector Symbol 12} {c : Fin 12} (h : IsChecksumSlot p c)
    (d : Fin 12) : c ≤ d ↔ ∀ k : Fin 12, d ≤ k → p[k] = 0#3 := by
  obtain ⟨hzeros, hlast⟩ := h
  refine ⟨fun hle k hk => hzeros k (hle.trans hk), fun hd => ?_⟩
  rcases hlast with rfl | ⟨k, hk, hne⟩
  · exact Fin.zero_le d
  · have : ¬ d ≤ k := fun hle => hne (hd k hle)
    omega

/-- A password has payload `p` when it is `p` below its checksum slot, which is not too early. -/
theorem hasPayload_iff_of_isChecksumSlot {p : Vector Symbol 12} {c : Fin 12}
    (h : IsChecksumSlot p c) (sym : Vector Symbol 12) (d : Fin 12) :
    HasPayload sym d p ↔ c ≤ d ∧ ∀ k : Fin 12, k < d → sym[k] = p[k] := by
  rw [hasPayload_iff, isChecksumSlot_le_iff h d, and_comm]

/-- The effective symbols of a sealed password are its payload. -/
theorem effectiveSymbol_sealedState {s : State} {c : Fin 12}
    (h : IsChecksumSlot (scatter s.table s.record) c) (k : Fin 12) :
    effectiveSymbol (sealedState s c) k = (scatter s.table s.record)[k] := by
  rw [← hasPayload_sealedPassword h k, effectiveSymbol, sealedState_len, payloadSymbol]
  exact if_congr Nat.add_lt_add_iff_right rfl rfl

/-- Settles O45: the payload bits of the record leave only the ignored bit open; the checksum symbol
then is the record's own, or 4 more. -/
theorem passwordsOfOneRecord : Obligations.PasswordsOfOneRecord := by
  intro s t u hwf hvalid henc htable
  obtain ⟨c, hslot, he⟩ := exists_exec_enc_eq_sealedState hvalid
  obtain rfl := Host.Outcome.next.inj (he.symm.trans henc)
  have hsealed : (sealedState s c).sym[c] = checksum (scatter s.table s.record).toList :=
    sealedPassword_slot _ _
  have hgives : ∀ {d : Fin 12}, u.len.toNat = d.val + 1 →
      ((∃ v, exec .dec u = .next v ∧ v.status = 0b0001#4 ∧ v.record = s.record) ↔
        checksum (u.sym.toList.take d.val) = u.sym[d] ∧
          (HasPayload u.sym d (scatter s.table s.record) ∨
            HasPayload u.sym d (toggleIgnoredBit (scatter s.table s.record)))) := fun hd => by
    rw [exec_dec_gives_record_iff (htable ▸ hwf) hvalid hd, htable, payloadBits_eq_iff_hasPayload]
  simp only [effectiveSymbol_sealedState hslot, sealedState_len, Nat.add_right_cancel_iff]
  constructor
  · rintro ⟨v, hdec, hstatus, hrecord⟩
    obtain ⟨d, hd, -⟩ := exec_dec_succeeded hdec hstatus
    obtain ⟨hsum, hp | hp⟩ := (hgives hd).mp ⟨v, hdec, hstatus, hrecord⟩
    · obtain ⟨hle, hbelow⟩ := (hasPayload_iff_of_isChecksumSlot hslot u.sym d).mp hp
      exact .inl ⟨c, d, rfl, hd, hle, hbelow, by rw [← hsum, hp.checksum_eq, hsealed]⟩
    · obtain ⟨rfl, -⟩ := last_of_hasPayload_toggle hp
      obtain ⟨hbelow, hten, -⟩ := (hasPayload_toggleIgnoredBit_iff _ _).mp hp
      rw [hp.checksum_eq, checksum_toggleIgnoredBit, ← hsealed] at hsum
      exact .inr ⟨c, rfl, BitVec.eq_of_toNat_eq hd, hbelow, hten, hsum.symm⟩
  · rintro (⟨c', d, hc, hd, hle, hbelow, hlast⟩ | ⟨c', hc, hlen, hbelow, hten, hlast⟩) <;>
      obtain rfl : c = c' := Fin.ext hc
    · have hp := (hasPayload_iff_of_isChecksumSlot hslot u.sym d).mpr ⟨hle, hbelow⟩
      exact (hgives hd).mpr ⟨by rw [hp.checksum_eq, ← hsealed, hlast], .inl hp⟩
    · have hp := (hasPayload_toggleIgnoredBit_iff u.sym _).mpr
        ⟨hbelow, hten, scatter_last_eq_zero s.table s.record⟩
      have hd : u.len.toNat = (11 : Fin 12).val + 1 := congrArg BitVec.toNat hlen
      refine (hgives hd).mpr ⟨?_, .inr hp⟩
      rw [hp.checksum_eq, checksum_toggleIgnoredBit, ← hsealed]
      exact hlast.symm

/-! ### `DEC` and then `ENC` under WF2 (44_laws.md R98) -/

/-- Being canonical is seen in the password alone. -/
theorem CanonicalPassword.of_samePassword {s u : State} (hu : CanonicalPassword u)
    (hsame : SamePassword s u) : CanonicalPassword s := by
  obtain ⟨hlen, hsym⟩ := hsame
  obtain ⟨hsum, htrail, hignored⟩ := hu
  obtain ⟨c, hc, hsum⟩ := (rightChecksum_iff_checksum_eq _ _).mp hsum
  rw [← hlen] at hc htrail hignored
  refine ⟨(rightChecksum_iff_checksum_eq _ _).mpr ⟨c, hc, ?_⟩, fun k hk => ?_, fun h12 => ?_⟩
  · rw [take_toList_congr fun k hk => hsym k (by omega), hsum, hsym c (by omega)]
  · rw [hsym k (by omega)]
    exact htrail k hk
  · have h10 : s.sym[(10 : Fin 12)] = u.sym[(10 : Fin 12)] := hsym 10 (by rw [h12]; decide)
    exact (congrArg (·.getLsbD 2) h10).trans (hignored h12)

/-- The payload of a canonical password is sealed in its own checksum slot. -/
theorem isChecksumSlot_of_canonicalPassword {s : State} {c : Fin 12} {p : Vector Symbol 12}
    (hcanon : CanonicalPassword s) (hc : s.len.toNat = c.val + 1) (hp : HasPayload s.sym c p) :
    IsChecksumSlot p c := by
  obtain ⟨-, htrail, -⟩ := hcanon
  obtain ⟨hbelow, habove⟩ := (hasPayload_iff _ _ _).mp hp
  refine ⟨habove, or_iff_not_imp_left.mpr fun hne => ?_⟩
  have hpos : 0 < c.val := Nat.pos_of_ne_zero fun h => hne (Fin.ext h)
  have hlt : c.val - 1 < 12 := by omega
  refine ⟨⟨c.val - 1, hlt⟩, Nat.sub_add_cancel hpos, ?_⟩
  rw [← hbelow ⟨c.val - 1, hlt⟩ (Nat.sub_lt hpos one_pos)]
  exact htrail ⟨c.val - 1, hlt⟩ (by simp only; omega)

/-- A password is the one sealed from its payload in its checksum slot. -/
theorem samePassword_of_sealed {s u : State} {c : Fin 12} {p : Vector Symbol 12}
    (hc : s.len.toNat = c.val + 1) (hsum : checksum (s.sym.toList.take c.val) = s.sym[c])
    (hp : HasPayload s.sym c p) (hsym : u.sym = sealedPassword p c)
    (hlen : u.len.toNat = c.val + 1) : SamePassword s u := by
  obtain ⟨hbelow, -⟩ := (hasPayload_iff _ _ _).mp hp
  refine ⟨BitVec.eq_of_toNat_eq (hc.trans hlen.symm), fun k hk => ?_⟩
  rw [hsym]
  rcases (show k < c ∨ k = c by omega) with hlt | rfl
  · rw [sealedPassword_of_ne hlt.ne, hbelow k hlt]
  · rw [sealedPassword_slot, ← hp.checksum_eq, hsum]

/-- Settles O43: a canonical password has the ignored bit clear, so its payload is the one that
`ENC` assembles, and it ends where `ENC` ends it. -/
theorem reencodingFixesExactlyCanonicalPasswords :
    Obligations.ReencodingFixesExactlyCanonicalPasswords := by
  intro s t ⟨hinj, _, _⟩ h hstatus
  obtain ⟨c, hc, hsum, hvalid, rfl⟩ := exec_dec_succeeded h hstatus
  set w := accumulate s.table s.sym c
  obtain ⟨u, henc, hu, -, -, hcanonu, -⟩ :=
    encodeLeavesACanonicalPassword (succeed (putRecord w s)) hvalid
  refine ⟨u, henc, hu, hcanonu.of_samePassword, fun hcanon => ?_⟩
  have hp : HasPayload s.sym c (scatter s.table w) := by
    refine ((payloadBits_eq_iff_hasPayload _ _ _ _).mp fun i =>
      (recordBit_accumulate hinj s.sym c i).symm).resolve_right fun htoggled => ?_
    obtain ⟨rfl, htop⟩ := last_of_hasPayload_toggle htoggled
    obtain ⟨-, -, hignored⟩ := hcanon
    exact absurd htop (by simpa using hignored (BitVec.eq_of_toNat_eq hc))
  have hslot := isChecksumSlot_of_canonicalPassword hcanon hc hp
  obtain rfl := Host.Outcome.next.inj ((exec_enc_of_validRecord
    (s := succeed (putRecord w s)) hvalid hslot).symm.trans henc)
  exact samePassword_of_sealed hc hsum hp rfl (sealedState_len _ c)

end Sys2Proof.Machine

/-! ## Proofs of the exceptions family: what raises each error, how long it shows, and several blocks -/

namespace Sys2Proof.Machine

/-! ### Everything a failing command can do (60_exceptions.md R108 to R112) -/

/-- `w` is the record that command `i` gives to the Validator: the assembled record of a password with
a right checksum for `DEC` (42_decoder.md R80), `REC` for `ENC` (43_encoder.md R86). -/
def ValidatedRecord : Instr → State → Vector Byte 8 → Prop
  | .dec, s, w => RightChecksum s.sym s.len.toNat ∧ AssembledRecord s.table s.sym s.len.toNat w
  | .enc, s, w => w = s.record

theorem ValidatedRecord.rightChecksum {s : State} {w : Vector Byte 8}
    (hw : ValidatedRecord .dec s w) : RightChecksum s.sym s.len.toNat :=
  hw.left

/-- A command validates at most one record. -/
theorem ValidatedRecord.unique {i : Instr} {s : State} {w v : Vector Byte 8}
    (hw : ValidatedRecord i s w) (hv : ValidatedRecord i s v) : w = v := by
  cases i with
  | dec =>
    obtain ⟨-, hw⟩ := hw
    obtain ⟨-, hv⟩ := hv
    exact record_ext fun f b => (hw f b).trans (hv f b).symm
  | enc => exact Eq.trans hw (Eq.symm hv)

/-- A command raises the violation of the record that it validates. -/
theorem ValidatedRecord.exec_of_violation {i : Instr} {s : State} {w : Vector Byte 8}
    {e : CommandError} (hw : ValidatedRecord i s w) (he : validate w = some e) :
    exec i s = .next (raiseError e s) := by
  cases i with
  | dec =>
    obtain ⟨hsum, hw⟩ := hw
    rw [exec_dec_of_rightChecksum hsum hw, commitRecord, he]
  | enc =>
    obtain rfl : w = s.record := hw
    exact exec_enc_of_violation he

/-- The command fails on `s` and leaves the state named last: one constructor for each error kind,
with its cause and what it records. -/
inductive Fails (s : State) : Instr → State → Prop where
  | emptyPassword (hlen : s.len = 0#4) : Fails s .dec (withResult s 0b0010#4 0#8 0#8 0#8)
  | checksumMismatch (c : Fin 12) (hc : s.len.toNat = c.val + 1)
      (hne : checksum (s.sym.toList.take c.val) ≠ s.sym[c]) :
      Fails s .dec (withResult s 0b0100#4 ((checksum (s.sym.toList.take c.val)).setWidth 8)
        (s.sym[c].setWidth 8) 0#8)
  | fieldOutOfBounds {i : Instr} {w : Vector Byte 8} (hw : ValidatedRecord i s w) (f : Fin 8)
      (hbelow : ∀ g : Fin 8, g < f → w[g] ≤ recordBounds[g]) (habove : recordBounds[f] < w[f]) :
      Fails s i (withResult s 0b0110#4 (BitVec.ofNat 8 f.val) w[f] recordBounds[f])
  | gatingViolation {i : Instr} {w : Vector Byte 8} (hw : ValidatedRecord i s w) (f : Fin 8)
      (gate : Byte) (hbounds : WithinBounds w) (hgate : FirstGateFailure w f gate) :
      Fails s i (withResult s 0b1000#4 (BitVec.ofNat 8 f.val) gate 0#8)

/-- Each cause of a failure makes the command fail so. -/
theorem Fails.exec_eq {i : Instr} {s t : State} (h : Fails s i t) : exec i s = .next t := by
  cases h with
  | emptyPassword hlen => rw [exec_dec_of_length_zero hlen, raiseError_emptyPassword]
  | checksumMismatch c hc hne => exact exec_dec_of_checksum_ne hc hne
  | fieldOutOfBounds hw f hbelow habove =>
    rw [hw.exec_of_violation ((validatorReportsTheFirstFailure _ _).mpr
      (.inl ⟨f, hbelow, habove, rfl⟩)), raiseError_fieldOutOfBounds]
  | gatingViolation hw f gate hbounds hgate =>
    rw [hw.exec_of_violation ((validatorReportsTheFirstFailure _ _).mpr
      (.inr ⟨hbounds, f, gate, hgate, rfl⟩)), raiseError_gatingViolation]

/-- A violation of the record validated is one of the Validator's two kinds of failure. -/
theorem ValidatedRecord.fails_of_violation {i : Instr} {s : State} {w : Vector Byte 8}
    {e : CommandError} (hw : ValidatedRecord i s w) (he : validate w = some e) :
    Fails s i (raiseError e s) := by
  rcases (validatorReportsTheFirstFailure w e).mp he with
    ⟨f, hbelow, habove, rfl⟩ | ⟨hbounds, f, gate, hgate, rfl⟩
  · rw [raiseError_fieldOutOfBounds]
    exact .fieldOutOfBounds hw f hbelow habove
  · rw [raiseError_gatingViolation]
    exact .gatingViolation hw f gate hbounds hgate

/-- With a right checksum, `DEC` validates its working record. -/
theorem validatedRecord_accumulate {s : State} {c : Fin 12} (hc : s.len.toNat = c.val + 1)
    (hsum : checksum (s.sym.toList.take c.val) = s.sym[c]) :
    ValidatedRecord .dec s (accumulate s.table s.sym c) := by
  refine ⟨(rightChecksum_iff_checksum_eq _ _).mpr ⟨c, hc.symm, hsum⟩, ?_⟩
  rw [hc]
  exact accumulate_assembles s.table s.sym c

/-- A command that ends without success has failed for one of the four causes. -/
theorem fails_of_exec {i : Instr} {s t : State} (h : exec i s = .next t)
    (hstatus : t.status ≠ 0b0001#4) : Fails s i t := by
  cases i with
  | dec =>
    rcases execDec_cases s with ⟨hlen, he⟩ | ⟨c, hc, he⟩ | ⟨-, he⟩ <;> rw [he] at h
    · obtain rfl := Host.Outcome.next.inj h
      exact raiseError_emptyPassword s ▸ .emptyPassword hlen
    · obtain rfl := Host.Outcome.next.inj h
      rcases decodePassword_cases c s with ⟨hne, hr⟩ | ⟨hsum, ⟨e, hv, hr⟩ | ⟨-, hr⟩⟩ <;>
        rw [hr] at hstatus ⊢
      · exact raiseError_checksumMismatch _ _ s ▸ .checksumMismatch c hc hne
      · exact (validatedRecord_accumulate hc hsum).fails_of_violation hv
      · exact absurd rfl hstatus
    · cases h
  | enc =>
    obtain rfl := Host.Outcome.next.inj ((exec_enc_eq s).symm.trans h)
    rcases encodeRecord_cases s with ⟨e, hv, hr⟩ | ⟨-, hr⟩ <;> rw [hr] at hstatus ⊢
    · exact ValidatedRecord.fails_of_violation (i := .enc) rfl hv
    · exact absurd rfl hstatus

/-- A command that ends with the `STATUS` word of an error has failed. -/
theorem fails_of_exec_status {i : Instr} {s t : State} {w : StatusWord} (h : exec i s = .next t)
    (hstatus : t.status = w) (hw : w ≠ 0b0001#4) : Fails s i t :=
  fails_of_exec h (hstatus ▸ hw)

/-! ### What a failing gate reports -/

/-- The first gate that fails is one of the four (41_validator.md R70 to R73). -/
theorem gate_of_firstGateFailure {r : Vector Byte 8} {f : Fin 8} {gate : Byte}
    (h : FirstGateFailure r f gate) :
    (f = 5 ∧ gate = 13#8) ∨ (f = 4 ∧ gate = 10#8) ∨ (f = 3 ∧ gate = 3#8) ∨
      (f = 2 ∧ gate = 3#8) :=
  reportable_of_firstGatingViolation
    ((firstGatingViolation_eq_some_iff r (.gatingViolation f gate)).mpr ⟨f, gate, h, rfl⟩)

/-! ### The checksum as it is recorded (40_checksum.md R64) -/

/-- The computed checksum in an `EINFO` register is the sum of the symbols modulo 8. -/
theorem checksum_setWidth_toNat (v : List Symbol) :
    ((checksum v).setWidth 8).toNat = symbolSum v % 8 := by
  rw [BitVec.toNat_setWidth, checksum_toNat]
  omega

theorem checksum_setWidth_eq_ofNat (v : List Symbol) :
    (checksum v).setWidth 8 = BitVec.ofNat 8 (symbolSum v % 8) := by
  rw [← checksum_setWidth_toNat, BitVec.ofNat_toNat, BitVec.setWidth_eq]

/-! ### The obligations about the four errors -/

/-- Settles O25: of the four causes of a failure, only the length 0 shows `STATUS` `0010`. -/
theorem emptyPasswordIsRaisedExactlyAtLengthZero :
    Obligations.EmptyPasswordIsRaisedExactlyAtLengthZero := by
  refine ⟨fun s hlen => (Fails.emptyPassword hlen).exec_eq, fun i s t h hstatus => ?_⟩
  cases fails_of_exec_status h hstatus (by decide) with
  | emptyPassword hlen => exact ⟨rfl, hlen⟩
  | _ => simp at hstatus

/-- Settles O26: of the four causes of a failure, only the mismatch shows `STATUS` `0100`, and its two
symbols stay different in the `EINFO` registers. -/
theorem checksumMismatchIsRaisedExactlyOnAWrongChecksum :
    Obligations.ChecksumMismatchIsRaisedExactlyOnAWrongChecksum := by
  refine ⟨fun s c hc hne => ?_, fun i s t h hstatus => ?_⟩
  · rw [← checksum_toNat, ne_eq, BitVec.toNat_inj] at hne
    rw [← checksum_setWidth_eq_ofNat]
    exact (Fails.checksumMismatch c hc hne).exec_eq
  · cases fails_of_exec_status h hstatus (by decide) with
    | checksumMismatch c hc hne =>
      exact ⟨rfl, setWidth_symbol_lt _, setWidth_symbol_lt _,
        fun heq => hne (setWidth_symbol_injective heq), rfl, c, hc, checksum_setWidth_toNat _, rfl⟩
    | _ => simp at hstatus

/-- Settles O27: the record that either command validates has a first field above its bound, and of
the four causes of a failure only this one shows `STATUS` `0110`. -/
theorem fieldOutOfBoundsInBothDirections : Obligations.FieldOutOfBoundsInBothDirections := by
  refine ⟨fun s w f hsum hw hbelow habove => ?_, fun s f hbelow habove => ?_,
    fun i s t h hstatus => ?_⟩
  · exact (Fails.fieldOutOfBounds (i := .dec) ⟨hsum, hw⟩ f hbelow habove).exec_eq
  · exact (Fails.fieldOutOfBounds (i := .enc) rfl f hbelow habove).exec_eq
  · cases fails_of_exec_status h hstatus (by decide) with
    | @fieldOutOfBounds _ w hw f _ habove =>
      refine ⟨f, rfl, rfl, habove, ?_, ?_⟩
      · rintro rfl
        obtain rfl : w = s.record := hw
        rfl
      · rintro rfl
        refine ⟨hw.rightChecksum, fun v hv => ?_⟩
        obtain rfl := hw.unique ⟨hw.rightChecksum, hv⟩
        rfl
    | _ => simp at hstatus

/-- Settles O28: the record that either command validates fails a gate within its bounds, and of the
four causes of a failure only this one shows `STATUS` `1000`. -/
theorem gatingViolationInBothDirections : Obligations.GatingViolationInBothDirections := by
  refine ⟨fun s w f gate hsum hw hbounds hgate => ?_, fun s f gate hbounds hgate => ?_,
    fun i s t h hstatus => ?_⟩
  · exact (Fails.gatingViolation (i := .dec) ⟨hsum, hw⟩ f gate hbounds hgate).exec_eq
  · exact (Fails.gatingViolation (i := .enc) rfl f gate hbounds hgate).exec_eq
  · cases fails_of_exec_status h hstatus (by decide) with
    | @gatingViolation _ w hw f gate hbounds hgate =>
      refine ⟨?_, rfl, ?_, ?_⟩
      · rcases gate_of_firstGateFailure hgate with
          ⟨rfl, rfl⟩ | ⟨rfl, rfl⟩ | ⟨rfl, rfl⟩ | ⟨rfl, rfl⟩ <;> simp
      · rintro rfl
        obtain rfl : w = s.record := hw
        exact ⟨hbounds, f, rfl, hgate⟩
      · rintro rfl
        refine ⟨hw.rightChecksum, fun v hv => ?_⟩
        obtain rfl := hw.unique ⟨hw.rightChecksum, hv⟩
        exact ⟨hbounds, f, rfl, hgate⟩
    | _ => simp at hstatus

/-! ### A result stays (60_exceptions.md R117) -/

/-- Settles O50: only a command or the reset event changes the result registers (O51). -/
theorem resultStaysUntilTheNextCommand : Obligations.ResultStaysUntilTheNextCommand := by
  intro a s t hreset hcmd h
  obtain ⟨-, -, -, hresult, -⟩ := onlyTheListedEventsChangeEachElement a s t h
  by_contra hchanged
  rcases hresult hchanged with ⟨i, hi⟩ | hr
  · exact hcmd i hi
  · exact hreset hr

/-! ### Several blocks (60_exceptions.md R123) -/

/-- No step changes `TABLE` (10_state.md R26). -/
theorem step_table {s t : State} (h : step s = .next t) : t.table = s.table := by
  rcases step_cases s with ⟨-, hstep⟩ | ⟨p, rest, -, hstep⟩ <;> rw [hstep] at h
  · rw [Host.Outcome.next.inj h]
  · rcases performPort_cases p (putPending rest s) with ⟨a, -, hp⟩ | ⟨why, -, hp⟩ <;> rw [hp] at h
    · obtain ⟨-, -, -, -, htable⟩ := onlyTheListedEventsChangeEachElement a _ t h
      exact htable
    · cases h

/-- A step of block `k` puts that block's own next state in its place, and nothing else. -/
theorem stepBlock_eq_next_iff (bs cs : List State) (k : Fin bs.length) :
    stepBlock bs k = .next cs ↔ ∃ t, step bs[k] = .next t ∧ cs = bs.set k.val t := by
  unfold stepBlock
  cases step bs[k] <;> simp [eq_comm]

/-- A block replaced by one with the same `TABLE` keeps it the `TABLE` of all. -/
theorem sameTable_set {bs : List State} {k : Fin bs.length} {t : State}
    (ht : t.table = bs[k].table) (h : sameTable bs) : sameTable (bs.set k.val t) := by
  have hold : ∀ a ∈ bs.set k.val t, ∃ b ∈ bs, a.table = b.table := fun a ha => by
    rcases List.mem_or_eq_of_mem_set ha with ha | rfl
    · exact ⟨a, ha, rfl⟩
    · exact ⟨bs[k], List.getElem_mem _, ht⟩
  intro a ha b hb
  obtain ⟨a', ha', hatable⟩ := hold a ha
  obtain ⟨b', hb', hbtable⟩ := hold b hb
  rw [hatable, hbtable, h a' ha' b' hb']

/-- Block `k` moves as before when another block has been replaced. -/
theorem stepBlock_set {bs : List State} {j k : Fin bs.length} (hne : j ≠ k) {t u : State}
    (hk : step bs[k] = .next u) (hlen : (bs.set j.val t).length = bs.length) :
    stepBlock (bs.set j.val t) (Fin.cast hlen.symm k) =
      .next ((bs.set j.val t).set k.val u) := by
  have hkept : (bs.set j.val t)[Fin.cast hlen.symm k] = bs[k] :=
    List.getElem_set_ne (fun heq => hne (Fin.ext heq)) _
  exact (stepBlock_eq_next_iff _ _ _).mpr ⟨u, hkept ▸ hk, rfl⟩

/-- Settles O14: a step replaces one entry by its own next state, and replacements of two entries
commute. -/
theorem blocksDoNotInteract : Obligations.BlocksDoNotInteract := by
  refine ⟨fun bs cs k h => ?_, fun bs cs ds j k hc hd hne hj hk => ?_⟩
  · obtain ⟨t, ht, rfl⟩ := (stepBlock_eq_next_iff bs cs k).mp h
    exact ⟨List.length_set, fun j hj => List.getElem?_set_ne hj.symm,
      ⟨t, ht, List.getElem?_set_self k.isLt⟩, sameTable_set (step_table ht)⟩
  · obtain ⟨t, ht, rfl⟩ := (stepBlock_eq_next_iff bs cs j).mp hj
    obtain ⟨u, hu, rfl⟩ := (stepBlock_eq_next_iff bs ds k).mp hk
    rw [stepBlock_set hne hu hc, stepBlock_set hne.symm ht hd,
      List.set_comm t u fun heq => hne (Fin.ext heq)]

end Sys2Proof.Machine

/-! ## Proofs of the reset family: what the reset event leaves, and where a step has no meaning -/

namespace Sys2Proof.Machine

/-! ### What every step keeps, every run keeps -/

/-- A run keeps what each of its steps keeps. -/
theorem core_run_keeps {P : State → Prop} (hkeep : ∀ s t, step s = .next t → P s → P t) (k : Nat)
    {s t : State} (h : Sys2Proof.core.run k s = .next t) (hs : P s) : P t := by
  induction k generalizing s with
  | zero =>
    obtain rfl : s = t := Host.Outcome.next.inj ((core_run_zero s).symm.trans h)
    exact hs
  | succ k ih =>
    rw [core_run_succ] at h
    cases hstep : step s with
    | next u =>
      rw [hstep] at h
      exact ih h (hkeep s u hstep hs)
    | fault r => exact nomatch r
    | refused why =>
      rw [hstep] at h
      exact absurd h nofun

/-- The reset event ends in every state (70_reset_and_hazards.md R125). -/
theorem performPort_reset (s : State) : performPort .reset s = .next (resetBlock s) := rfl

/-- Settles O11: the reset event takes `TABLE` over, and no step of a run changes it. -/
theorem tableKeepsItsValues : Obligations.TableKeepsItsValues := by
  refine ⟨fun s t h => ?_, fun k s t h => ?_⟩
  · obtain rfl : resetBlock s = t := Host.Outcome.next.inj ((performPort_reset s).symm.trans h)
    exact resetBlock_table s
  · exact core_run_keeps (P := fun u => u.table = s.table)
      (fun _ _ hstep hu => (step_table hstep).trans hu) k h rfl

/-! ### Where a step has no next state (30_encoding.md R59, 70_reset_and_hazards.md R138) -/

/-- Nothing faults, so an outcome that is no refusal is a next state (log 11). -/
theorem exists_next_iff_not_refused (o : Host.Outcome State Fault Refusal) :
    (∃ t, o = .next t) ↔ ¬ ∃ why, o = .refused why := by
  cases o with
  | next t => simp
  | fault r => exact nomatch r
  | refused why => simp

/-- Of the two commands only `DEC` is ever refused, at the reserved lengths (42_decoder.md R77). -/
theorem exec_refused_iff (i : Instr) (s : State) :
    (∃ why, exec i s = .refused why) ↔ i = .dec ∧ 13 ≤ s.len.toNat := by
  cases i with
  | enc => simp [exec_enc_eq]
  | dec =>
    by_cases hlen : 13 ≤ s.len.toNat
    · simp [exec_dec_of_reservedLength hlen, hlen]
    · obtain ⟨t, ht⟩ := exists_exec_dec_eq_next (s := s) (by omega)
      simp [ht, hlen]

/-- An access that the map allows is refused only when it runs a command that is. -/
theorem performAccess_refused_iff (a : Access) (s : State) :
    (∃ why, performAccess a s = .refused why) ↔ a = .cmd .dec ∧ 13 ≤ s.len.toNat := by
  cases a with
  | cmd i =>
    rw [Access.cmd.injEq]
    exact exec_refused_iff i s
  | _ => simp [performAccess]

/-- The write of `CMD` that runs a command is the only access that decodes to it. -/
theorem eq_cmd_iff_of_decodeAccess {p : PortAccess} {a : Access} (h : decodeAccess p = .ok a)
    (i : Instr) : a = .cmd i ↔ p = .write cmdNumber (encodeInstr i) := by
  constructor
  · rintro rfl
    exact (encodeAccess_of_decodeAccess h).symm
  · rintro rfl
    exact Except.ok.inj (h.symm.trans (decodeAccess_encodeAccess (.cmd i)))

/-- What stands at the port is refused when the map gives it no meaning, or when it is a `DEC` of a
reserved length. -/
theorem performPort_refused_iff (p : PortAccess) (s : State) :
    (∃ why, performPort p s = .refused why) ↔
      p.wellFormed = false ∨ (p = .write 21 0 ∧ 13 ≤ s.len.toNat) := by
  have hmap := decoderAcceptsExactlyTheRegisterMap p
  rcases performPort_cases p s with ⟨a, ha, hp⟩ | ⟨why, hwhy, hp⟩
  · have hwf : p.wellFormed = true := hmap.mp ⟨a, ha⟩
    rw [hp, performAccess_refused_iff, eq_cmd_iff_of_decodeAccess ha]
    simp [hwf, cmdNumber, encodeInstr]
  · have hwf : p.wellFormed = false := by
      rw [← Bool.not_eq_true, ← hmap, hwhy]
      exact nofun
    simp [hp, hwf]

/-- Settles O13: an idle step holds, and any other performs the access at the port, with the same
`LEN`. -/
theorem stepsStopOnlyOnReservedCases : Obligations.StepsStopOnlyOnReservedCases := by
  refine fun s => ⟨?_, exists_next_iff_not_refused (step s)⟩
  rcases step_cases s with ⟨hidle, hstep⟩ | ⟨p, rest, hpending, hstep⟩
  · simp [hidle, hstep]
  · rw [hstep, performPort_refused_iff]
    simp [hpending]

/-! ### The registers after the reset event (70_reset_and_hazards.md R126, R127) -/

/-- Every register but a `TABLE` entry reads 0 after the reset event, `LEVEL` included. -/
theorem registerValue_resetBlock {n : Nat} (hn : n ≤ 26) (hcmd : n ≠ 21) (s : State) :
    registerValue n (resetBlock s) = some 0#8 := by
  obtain ⟨a, ha⟩ := exists_decodeRead_eq_ok ((readableNumber_iff n).mpr (by omega))
  have henc := encodeAccess_of_decodeRead ha
  rw [registerValue_of_encodeAccess henc]
  cases a with
  | rrec f => simp [accessValue]
  | rsym k => simp [accessValue]
  | rei j => fin_cases j <;> rfl
  | rtab i => cases henc; omega
  | rlen | rstat | rlvl => rfl
  | wrec | wsym | wlen | cmd | reset => cases henc

/-- The numbers from 32 up name at most a `TABLE` entry, which the reset event leaves (R29). -/
theorem registerValue_resetBlock_table {n : Nat} (hn : 32 ≤ n) (s : State) :
    registerValue n (resetBlock s) = registerValue n s :=
  registerValue_congr fun a ha => by
    cases a with
    | rtab | wrec | wsym | wlen | cmd | reset => rfl
    | _ => cases ha; omega

/-- Settles O10: the numbers up to 26 name what the reset event clears, those from 32 up what it
leaves. -/
theorem resetClearsEveryRegisterButTheTable :
    Obligations.ResetClearsEveryRegisterButTheTable :=
  fun s => ⟨resetBlock s, performPort_reset s, fun _ hn hcmd => registerValue_resetBlock hn hcmd s,
    fun _ hn => registerValue_resetBlock_table hn s, resetBlock_pending s, resetBlock_answers s⟩

/-- Settles O52: after reset `DEC` finds the length 0, and `ENC` the all-zero record (O38). -/
theorem firstCommandAfterReset : Obligations.FirstCommandAfterReset := by
  intro s r h
  obtain rfl : resetBlock s = r := Host.Outcome.next.inj ((performPort_reset s).symm.trans h)
  refine ⟨⟨_, exec_dec_of_length_zero (resetBlock_len s), ?_⟩,
    ⟨_, zeroRecordEncodesToOneZeroSymbol _ (resetBlock_record s), rfl, rfl, rfl⟩⟩
  rw [raiseError_emptyPassword, withResult_status]

end Sys2Proof.Machine
